-- ==== Sys2Proof/Word.lean ====
section
/-! DEFINITION. The word types of the I2C master block. A bit vector stands only for what the spec treats as bits:
register contents, micro-addresses, fields of an encoded word. -/

namespace Sys2Proof

/-- One byte: a BUF entry, a byte on the wire, the DR.DR field (rules R35, R52). -/
abbrev Byte := BitVec 8

/-- A bus-controller register or a micro-instruction word: 16 bits (rules R30, R85). -/
abbrev Half := BitVec 16

/-- A command descriptor or a host word: 32 bits (rules R51, R80). -/
abbrev Word := BitVec 32

/-- A micro-address, the width of `m.upc` and of the TGT field: 6 bits (rules R20, R85). -/
abbrev MicroAddr := BitVec 6

end Sys2Proof
end

