-- ==== Sys2Proof/Config.lean ====
section
/-! DEFINITION. Implementation parameters (rule R8) and the choices the spec leaves open: whose step comes next and
what the environment answers (rules R3, R65, R179). -/

namespace Sys2Proof

/-! ### Parameters whose value the spec fixes (rule R8) -/

/-- `FREQ_MIN`: the least legal frequency field, in MHz. -/
def freqMin : Nat := 2
/-- `FREQ_MAX`: the greatest legal frequency field, in MHz (90_conflicts.md C5). -/
def freqMax : Nat := 50
/-- `SCL_STD`: the standard-mode bus clock, in Hz. -/
def sclStd : Nat := 100000
/-- `SCL_FAST`: the fast-mode bus clock, in Hz. -/
def sclFast : Nat := 400000
/-- `RISE_NS_STD`: the standard-mode rise bound, in ns (D9). -/
def riseNsStd : Nat := 1000
/-- `RISE_NS_FAST`: the fast-mode rise bound, in ns. -/
def riseNsFast : Nat := 300
/-- `CCR_MIN_STD` (D34). -/
def ccrMinStd : Nat := 4
/-- `CCR_MIN_FAST` (D34). -/
def ccrMinFast : Nat := 1
/-- The greatest value of the 8-bit rise-time field, `W_TRISE` = 8 (rule R104). -/
def triseMax : Nat := 255
/-- The greatest value of the 12-bit clock-control field, `W_CCR` = 12 (rule R107). -/
def ccrMax : Nat := 4095
/-- `BUF_DEPTH`: the bytes of the transfer buffer (rule R52). -/
def bufDepth : Nat := 256

/-! ### Parameters the model takes as arguments (rules R8, R9)

They are held in the state, so that a claim about every state is a claim about every value of them; no step changes
one (log entry 1). -/

/-- The parameters of rule R8 that are OPEN or have only a default. -/
structure Config where
  /-- `POLL_BUDGET`: reads per poll loop before Timeout, 0 = unbounded. OPEN. -/
  pollBudget : BitVec 16
  /-- `I2C_BASE`: base address of the bus-controller registers. OPEN. DESIGN CHOICE: 32 bits; the spec names no width for
  it (rules R8, R63), and no step depends on it (log entry 20). -/
  i2cBase : Word
  /-- `HI_BASE`: base address of the host interface. OPEN. DESIGN CHOICE: 32 bits; the spec names no width for it (rules
  R8, R63), and no step depends on it (log entry 20). -/
  hiBase : Word
  /-- `PLATFORM_READY`: the launch premise of rule R229. -/
  platformReady : Bool := true
  /-- `NOSTRETCH_CFG`: what SET_OPTS writes to CR1.NOSTRETCH. -/
  noStretchCfg : Bool := false
  /-- `ANFOFF_CFG`: what SET_OPTS writes to FLTR.ANFOFF. -/
  anfOffCfg : Bool := false
  /-- `DNF_CFG`: what SET_OPTS writes to FLTR.DNF. -/
  dnfCfg : BitVec 4 := 0
  /-- `LAST_BYTE_WINDOW_MET` (rule R151). -/
  lastByteWindowMet : Bool := true
  /-- `MULTI_MASTER` (rules R172, R177). -/
  multiMaster : Bool := true
deriving DecidableEq, Repr

/-- The value of the OPEN parameter `POLL_BUDGET` in the reset state: unknown (log entry 1). -/
opaque Config.openPollBudget : BitVec 16
/-- The value of the OPEN parameter `I2C_BASE` in the reset state: unknown (log entry 1), of the width the
model chose (DESIGN CHOICE, log entry 20). -/
opaque Config.openI2cBase : Word
/-- The value of the OPEN parameter `HI_BASE` in the reset state: unknown (log entry 1), of the width the
model chose (DESIGN CHOICE, log entry 20). -/
opaque Config.openHiBase : Word

/-- The parameters of the reset state: the spec's defaults, and unknown values for the OPEN ones (rules R8, R9). -/
def Config.launch : Config where
  pollBudget := Config.openPollBudget
  i2cBase := Config.openI2cBase
  hiBase := Config.openHiBase

/-! ### Whose step comes next (rules R3, R65) and what the environment draws (rules R171 to R174) -/

/-- The slave's answer to an address byte: the draw of rule R171. -/
inductive Answer where
  | ack
  | nack
deriving DecidableEq, Repr, Inhabited

/-- The draw of rule R173: the slave's answer to a data byte, or the loss of arbitration. -/
inductive TxDraw where
  | ack
  | nack
  | arb
deriving DecidableEq, Repr, Inhabited

/-- One turn of the interleaving of rule R65: the agent that steps, with the draws its step takes. -/
inductive Turn where
  /-- the host makes its next access (rule R61) -/
  | host
  /-- the MTE runs one micro-operation, or one read of a poll (rules R61, R132) -/
  | mte
  /-- START generation (rule R170) -/
  | bcStart
  /-- address byte, with the slave's answer (rule R171) -/
  | bcAddr (ans : Answer)
  /-- arbitration loss in the address phase (rule R172) -/
  | bcAddrArb
  /-- transmitted data byte, with its draw (rule R173) -/
  | bcTx (draw : TxDraw)
  /-- received data byte, with the byte the slave sends (rule R174) -/
  | bcRx (d : Byte)
  /-- STOP while master and stalled (rule R175) -/
  | bcStop
  /-- STOP while not master (rule R176) -/
  | bcStopIdle
  /-- another master claims the bus (rule R177) -/
  | envClaim
  /-- another master releases the bus (rule R178) -/
  | envRelease
deriving DecidableEq, Repr, Inhabited

/-- FREE VALUE. The turn taken when the state's schedule names none: the spec gives the interleaving and the draws no
rule (rules R65, R179), so nothing in Lean can know it (log entry 3). -/
opaque Config.freeTurn : Nat → Turn

end Sys2Proof
end

