-- ==== Sys2Proof/Syntax.lean ====
section
/-! DEFINITION. The instructions of the block: the four command descriptors of rule R80 and the 25 micro-operations
of rule R87, one constructor per row of spec/opcode_table.json. -/

namespace Sys2Proof

/-- The target bus mode (rule R81): standard (100 kHz) or fast (400 kHz). -/
inductive BusMode where
  | std
  | fast
deriving DecidableEq, Repr

/-- The fast-mode duty (rule R81): Tlow/Thigh = 2, or 16/9. -/
inductive Duty where
  | d2
  | d169
deriving DecidableEq, Repr

/-- The sequencing kinds of rule R85. Codes 6 and 7 are reserved and have no constructor. -/
inductive Seq where
  | next
  | endCmd
  | loopw
  | loopr
  | skip1
  | cfgchk
deriving DecidableEq, Repr

/-- One instruction: a command descriptor (rules R80 to R84) or a micro-instruction with its SEQ and TGT fields
(rules R85 to R87). -/
inductive Instr where
  /-- INIT (rules R81, R115) -/
  | init (mode : BusMode) (duty : Duty) (clk : BitVec 28)
  /-- WRITE of `lenm1 + 1` bytes (rules R82, R130) -/
  | write (addr : BitVec 7) (lenm1 : BitVec 8)
  /-- READ of `lenm1 + 1` bytes (rules R82, R131) -/
  | read (addr : BitVec 7) (lenm1 : BitVec 8)
  /-- a malformed descriptor, kept whole (rule R84) -/
  | badCommand (word : Word)
  /-- DONE (rule R135) -/
  | done (seq : Seq) (tgt : MicroAddr)
  /-- TCU_EVAL (rule R116) -/
  | tcuEval (seq : Seq) (tgt : MicroAddr)
  /-- PE_OFF (rule R117) -/
  | peOff (seq : Seq) (tgt : MicroAddr)
  /-- SEL_I2C (rule R118) -/
  | selI2c (seq : Seq) (tgt : MicroAddr)
  /-- SET_OPTS (rule R119) -/
  | setOpts (seq : Seq) (tgt : MicroAddr)
  /-- WR_FREQ (rule R120) -/
  | wrFreq (seq : Seq) (tgt : MicroAddr)
  /-- WR_CCR (rule R121) -/
  | wrCcr (seq : Seq) (tgt : MicroAddr)
  /-- WR_TRISE (rule R122) -/
  | wrTrise (seq : Seq) (tgt : MicroAddr)
  /-- PE_ON (rule R123) -/
  | peOn (seq : Seq) (tgt : MicroAddr)
  /-- ACK_ON (rule R136) -/
  | ackOn (seq : Seq) (tgt : MicroAddr)
  /-- GEN_START (rule R137) -/
  | genStart (seq : Seq) (tgt : MicroAddr)
  /-- POLL_SB (rule R138) -/
  | pollSb (seq : Seq) (tgt : MicroAddr)
  /-- POLL_MB (rule R139) -/
  | pollMb (seq : Seq) (tgt : MicroAddr)
  /-- TX_ADDR (rule R140) -/
  | txAddr (seq : Seq) (tgt : MicroAddr)
  /-- POLL_ADDR (rule R141) -/
  | pollAddr (seq : Seq) (tgt : MicroAddr)
  /-- CLR_ADDR (rule R142) -/
  | clrAddr (seq : Seq) (tgt : MicroAddr)
  /-- POLL_TXE (rule R143) -/
  | pollTxe (seq : Seq) (tgt : MicroAddr)
  /-- TX_DATA (rule R144) -/
  | txData (seq : Seq) (tgt : MicroAddr)
  /-- POLL_BTF (rule R145) -/
  | pollBtf (seq : Seq) (tgt : MicroAddr)
  /-- GEN_STOP (rule R146) -/
  | genStop (seq : Seq) (tgt : MicroAddr)
  /-- POLL_STOP (rule R147) -/
  | pollStop (seq : Seq) (tgt : MicroAddr)
  /-- POLL_RXNE (rule R148) -/
  | pollRxne (seq : Seq) (tgt : MicroAddr)
  /-- RX_DATA (rule R149) -/
  | rxData (seq : Seq) (tgt : MicroAddr)
  /-- NACK_STOP (rule R150) -/
  | nackStop (seq : Seq) (tgt : MicroAddr)
  /-- ABORT (rule R204) -/
  | abort (seq : Seq) (tgt : MicroAddr)
deriving DecidableEq, Repr

end Sys2Proof
end

