-- ==== Sys2Proof/WellFormed.lean ====
section
/-! DEFINITION. When an instruction is well formed. The types bound every field of INIT, WRITE, READ and the
micro-instructions; a BAD_COMMAND must hold a word that rule R84 calls malformed. -/

namespace Sys2Proof

/-- The bits of a WRITE or READ descriptor that must be 0: [7:2], [15] and [31:24] (rule R82). -/
def cmdReserved : Word := 0xFF0080FC#32

/-- Rule R83's test of a descriptor: OP = 0, or a WRITE or READ with a nonzero reserved bit. -/
def cmdMalformed (v : Word) : Bool :=
  let op := v.extractLsb' 0 2
  op == 0#2 || (op != 1#2 && v &&& cmdReserved != 0#32)

/-- A well-formed instruction is one that some word stands for. -/
def Instr.wellFormed : Instr → Bool
  | .badCommand w => cmdMalformed w
  | .init _ _ _ | .write _ _ | .read _ _ => true
  | .done _ _ | .tcuEval _ _ | .peOff _ _ | .selI2c _ _ | .setOpts _ _ => true
  | .wrFreq _ _ | .wrCcr _ _ | .wrTrise _ _ | .peOn _ _ | .ackOn _ _ => true
  | .genStart _ _ | .pollSb _ _ | .pollMb _ _ | .txAddr _ _ | .pollAddr _ _ => true
  | .clrAddr _ _ | .pollTxe _ _ | .txData _ _ | .pollBtf _ _ | .genStop _ _ => true
  | .pollStop _ _ | .pollRxne _ _ | .rxData _ _ | .nackStop _ _ | .abort _ _ => true

end Sys2Proof
end

