-- ==== Sys2Proof/Decode.lean ====
section
/-! DEFINITION. Decoding and encoding (rules R80 to R89), and the microprogram ROM (rule R86). -/

namespace Sys2Proof

/-! ### The words -/

/-- An encoded instruction. A decoder tells the two formats by where the word came from (rule R89): the CMD register
or the microprogram ROM. -/
inductive Code where
  | cmd (w : Word)
  | uop (w : Half)
deriving DecidableEq, Repr

/-- Why a ROM word is no micro-instruction (rule R87). -/
inductive DecodeError where
  /-- bits [15:14] are not 0 -/
  | reservedBits
  /-- SEQ is 6 or 7 -/
  | reservedSeq
  /-- OP is 0x19 or more -/
  | reservedOp
deriving DecidableEq, Repr

/-! ### Decoding -/

/-- MODE, bit [2] (rule R81). -/
def decodeMode (b : Bool) : BusMode := if b then .fast else .std

/-- DUTY, bit [3] (rule R81). -/
def decodeDuty (b : Bool) : Duty := if b then .d169 else .d2

/-- A command descriptor: every word has a meaning (rules R80 to R84). -/
def decodeCmd (v : Word) : Instr :=
  if cmdMalformed v then .badCommand v
  else if v.extractLsb' 0 2 = 1#2 then
    .init (decodeMode (v.getLsbD 2)) (decodeDuty (v.getLsbD 3)) (v.extractLsb' 4 28)
  else if v.extractLsb' 0 2 = 2#2 then .write (v.extractLsb' 8 7) (v.extractLsb' 16 8)
  else .read (v.extractLsb' 8 7) (v.extractLsb' 16 8)

/-- SEQ, bits [7:5] (rule R85). -/
def decodeSeq (v : BitVec 3) : Option Seq :=
  match v.toNat with
  | 0 => some .next
  | 1 => some .endCmd
  | 2 => some .loopw
  | 3 => some .loopr
  | 4 => some .skip1
  | 5 => some .cfgchk
  | _ => none

/-- OP, bits [4:0] (rule R87): the micro-operation of a code. -/
def decodeOp (op : BitVec 5) (seq : Seq) (tgt : MicroAddr) : Option Instr :=
  match op.toNat with
  | 0x00 => some (.done seq tgt)
  | 0x01 => some (.tcuEval seq tgt)
  | 0x02 => some (.peOff seq tgt)
  | 0x03 => some (.selI2c seq tgt)
  | 0x04 => some (.setOpts seq tgt)
  | 0x05 => some (.wrFreq seq tgt)
  | 0x06 => some (.wrCcr seq tgt)
  | 0x07 => some (.wrTrise seq tgt)
  | 0x08 => some (.peOn seq tgt)
  | 0x09 => some (.ackOn seq tgt)
  | 0x0A => some (.genStart seq tgt)
  | 0x0B => some (.pollSb seq tgt)
  | 0x0C => some (.pollMb seq tgt)
  | 0x0D => some (.txAddr seq tgt)
  | 0x0E => some (.pollAddr seq tgt)
  | 0x0F => some (.clrAddr seq tgt)
  | 0x10 => some (.pollTxe seq tgt)
  | 0x11 => some (.txData seq tgt)
  | 0x12 => some (.pollBtf seq tgt)
  | 0x13 => some (.genStop seq tgt)
  | 0x14 => some (.pollStop seq tgt)
  | 0x15 => some (.pollRxne seq tgt)
  | 0x16 => some (.rxData seq tgt)
  | 0x17 => some (.nackStop seq tgt)
  | 0x18 => some (.abort seq tgt)
  | _ => none

/-- A micro-instruction word, or why it is none (rules R85, R87). -/
def decodeUop (w : Half) : Except DecodeError Instr :=
  if w.extractLsb' 14 2 ≠ 0#2 then .error .reservedBits
  else
    match decodeSeq (w.extractLsb' 5 3) with
    | none => .error .reservedSeq
    | some seq =>
      match decodeOp (w.extractLsb' 0 5) seq (w.extractLsb' 8 6) with
      | none => .error .reservedOp
      | some i => .ok i

/-- The decoder of both formats. -/
def decode : Code → Except DecodeError Instr
  | .cmd w => .ok (decodeCmd w)
  | .uop w => decodeUop w

/-! ### Encoding -/

/-- MODE as its bit (rule R81). -/
def BusMode.bit : BusMode → BitVec 1
  | .std => 0#1
  | .fast => 1#1

/-- DUTY as its bit (rule R81). -/
def Duty.bit : Duty → BitVec 1
  | .d2 => 0#1
  | .d169 => 1#1

/-- SEQ as its code (rule R85). -/
def Seq.code : Seq → BitVec 3
  | .next => 0#3
  | .endCmd => 1#3
  | .loopw => 2#3
  | .loopr => 3#3
  | .skip1 => 4#3
  | .cfgchk => 5#3

/-- A micro-instruction word from its fields, `OP | SEQ << 5 | TGT << 8` (rule R85). -/
def encodeUop (op : BitVec 5) (seq : Seq) (tgt : MicroAddr) : Code :=
  .uop (op.setWidth 16 ||| seq.code.setWidth 16 <<< 5 ||| tgt.setWidth 16 <<< 8)

/-- The word of an instruction (rules R81, R82, R85, R87). -/
def encode : Instr → Code
  | .init mode duty clk =>
    .cmd (1#32 ||| mode.bit.setWidth 32 <<< 2 ||| duty.bit.setWidth 32 <<< 3 ||| clk.setWidth 32 <<< 4)
  | .write addr lenm1 => .cmd (2#32 ||| addr.setWidth 32 <<< 8 ||| lenm1.setWidth 32 <<< 16)
  | .read addr lenm1 => .cmd (3#32 ||| addr.setWidth 32 <<< 8 ||| lenm1.setWidth 32 <<< 16)
  | .badCommand w => .cmd w
  | .done seq tgt => encodeUop 0x00#5 seq tgt
  | .tcuEval seq tgt => encodeUop 0x01#5 seq tgt
  | .peOff seq tgt => encodeUop 0x02#5 seq tgt
  | .selI2c seq tgt => encodeUop 0x03#5 seq tgt
  | .setOpts seq tgt => encodeUop 0x04#5 seq tgt
  | .wrFreq seq tgt => encodeUop 0x05#5 seq tgt
  | .wrCcr seq tgt => encodeUop 0x06#5 seq tgt
  | .wrTrise seq tgt => encodeUop 0x07#5 seq tgt
  | .peOn seq tgt => encodeUop 0x08#5 seq tgt
  | .ackOn seq tgt => encodeUop 0x09#5 seq tgt
  | .genStart seq tgt => encodeUop 0x0A#5 seq tgt
  | .pollSb seq tgt => encodeUop 0x0B#5 seq tgt
  | .pollMb seq tgt => encodeUop 0x0C#5 seq tgt
  | .txAddr seq tgt => encodeUop 0x0D#5 seq tgt
  | .pollAddr seq tgt => encodeUop 0x0E#5 seq tgt
  | .clrAddr seq tgt => encodeUop 0x0F#5 seq tgt
  | .pollTxe seq tgt => encodeUop 0x10#5 seq tgt
  | .txData seq tgt => encodeUop 0x11#5 seq tgt
  | .pollBtf seq tgt => encodeUop 0x12#5 seq tgt
  | .genStop seq tgt => encodeUop 0x13#5 seq tgt
  | .pollStop seq tgt => encodeUop 0x14#5 seq tgt
  | .pollRxne seq tgt => encodeUop 0x15#5 seq tgt
  | .rxData seq tgt => encodeUop 0x16#5 seq tgt
  | .nackStop seq tgt => encodeUop 0x17#5 seq tgt
  | .abort seq tgt => encodeUop 0x18#5 seq tgt

/-! ### The microprogram ROM (rule R86) -/

/-- Micro-addresses 0 to 8: INIT. -/
def romInit : List Half :=
  [0x00A1#16, 0x0002#16, 0x0003#16, 0x0004#16, 0x0005#16, 0x0006#16, 0x0007#16, 0x0008#16, 0x0020#16]

/-- Micro-addresses 9 to 20: WRITE. -/
def romWrite : List Half :=
  [0x000A#16, 0x000B#16, 0x000C#16, 0x000D#16, 0x000E#16, 0x000F#16, 0x0010#16, 0x0011#16, 0x0F52#16, 0x0013#16,
   0x0014#16, 0x0020#16]

/-- Micro-addresses 21 to 34: READ. -/
def romRead : List Half :=
  [0x0009#16, 0x000A#16, 0x000B#16, 0x000C#16, 0x000D#16, 0x000E#16, 0x1E8F#16, 0x0015#16, 0x1C76#16, 0x0017#16,
   0x0015#16, 0x0016#16, 0x0014#16, 0x0020#16]

/-- Micro-address 35: ABORT. -/
def romAbort : List Half := [0x0038#16]

/-- The 36 words of the ROM, in micro-address order (rule R86). -/
def romWords : List Half := romInit ++ romWrite ++ romRead ++ romAbort

/-! ### The host's view of the decoder -/

/-- The instruction of a table row's word: 16 bits are a ROM word, up to 32 bits otherwise are a command descriptor
whose bits above `nbits` are 0 (rule R89, log entry 5). -/
def decodeTableWord (nbits w : Nat) : Option Instr :=
  if nbits = 16 then
    match decodeUop (BitVec.ofNat 16 w) with
    | .ok i => some i
    | .error _ => none
  else if nbits ≤ 32 then some (decodeCmd (BitVec.ofNat 32 (w % 2 ^ nbits)))
  else none

end Sys2Proof
end

