-- ==== Sys2Proof/Machine/State.lean ====
section
/-! DEFINITION. The state of the block, as plain data: the MTE registers (rule R18), the bus-controller registers and
hidden state (rules R30, R45), the environment's bit (rule R47), the transfer buffer (rule R52), the ROM (rule R86),
the bus trace (rule R13), the sticky faults and refusal mark (rule R48), the host program (rule R244), and the fields
of the model's own that say whose step comes next and what the host got back. -/

namespace Sys2Proof.Machine

/-! ### Names -/

/-- `m.op`, 2 bits: the command being run (rule R18). Codes 0 to 3 in this order. -/
inductive CmdOp where
  | none
  | init
  | write
  | read
deriving DecidableEq, Repr

/-- `m.dir`, 1 bit: the direction (rule R18). -/
inductive Dir where
  | write
  | read
deriving DecidableEq, Repr

/-- `m.err`, 3 bits: the error kind carried to ABORT. Codes 0, 3, 4, 5 (rule R18). -/
inductive ErrKind where
  | none
  | timeout
  | nackReceived
  | arbitrationLost
deriving DecidableEq, Repr

/-- `m.result`, 4 bits: codes 0 to 6; 7 to 15 are never produced (rule R25). -/
inductive ResultCode where
  | none
  | ok
  | configError
  | timeout
  | nackReceived
  | arbitrationLost
  | badCommand
deriving DecidableEq, Repr

/-- `b.bmode`: the wire-side phase of the bus controller (rules R45, R46). -/
inductive BMode where
  | idle
  | mSb
  | mAddr
  | mTx
  | mRx
  | mRxEnd
  | mNacked
  | lost
deriving DecidableEq, Repr

/-- An event of the bus trace (rule R13). -/
inductive Event where
  | start
  | addr (b : Byte)
  | data (b : Byte)
  | ack
  | nack
  | stop
  | arbLost
deriving DecidableEq, Repr

/-- The width of a host access (rules R51, R56). -/
inductive Width where
  | byte
  | half
  | word
deriving DecidableEq, Repr

/-- A host access at a byte offset from `HI_BASE` (rule R51). -/
inductive HostAccess where
  | read (w : Width) (off : Nat)
  | write (w : Width) (off : Nat) (v : Word)
deriving DecidableEq, Repr

/-- A caller's operation, as far as what follows its `wait` (rule R91). -/
inductive Call where
  | init
  | write
  /-- `n` is the number of bytes the caller wants -/
  | read (n : Nat)
deriving DecidableEq, Repr

/-- The results a caller gets back (rule R91). -/
inductive CallResult where
  | ok
  | configError
  | timeout
  | nackReceived
  | arbitrationLost
deriving DecidableEq, Repr

/-- One step of a host program (rule R244), with the steps that the caller's operations need (log entry 16). -/
inductive HostStep where
  /-- one access -/
  | access (a : HostAccess)
  /-- the `wait` of rule R91: STATUS is read until BUSY = 0; then the call it belongs to, if any, gets its result -/
  | wait (c : Option Call)
  /-- `buffer[i] <- BUF[i]` of a `read` that returns Ok (rule R91) -/
  | fetch (i : Nat)
deriving DecidableEq, Repr

/-- What a host read returns: a 32-bit word or a BUF byte (rules R51, R54, R55). -/
inductive HostValue where
  | word (v : Word)
  | byte (v : Byte)
deriving DecidableEq, Repr

/-- The sticky model faults of rule R210. -/
inductive ModelFault where
  /-- a BUF byte that was never written is sent by TX_DATA or read by the host -/
  | unwrittenBuf
  /-- a CR1 write with PE = 0 while the bus controller is master -/
  | abortWithoutStop
deriving DecidableEq, Repr

/-- Why a step stops. -/
inductive Fault where
  /-- Raised by `step` in a state in which a sticky fault of rule R210 is recorded: that state is quiescent, so no
  agent takes a further step. Safe: the spec says no step follows. -/
  | recorded (f : ModelFault)
  /-- Raised by an MTE turn whose `m.upc` is no address of the ROM; no run reaches such a state (rule R20). Safe. -/
  | microAddressOutsideRom
  /-- Raised by RX_DATA when `m.idx` is 256 or more, so that BUF has no byte `BUF[m.idx]`; no run reaches such a state
  (rules R22, R52). Safe. -/
  | bufIndexOutside
deriving DecidableEq, Repr

/-- Why a step has no meaning. The refusals of rules R43, R56 and R87 are no stops: they set the sticky refusal mark
of the state (log entry 7). -/
inductive Refusal where
  /-- Raised by an arm of `exec` whose instruction has no meaning in the model; no arm does. Safe. -/
  | notModelled (mnemonic : String)
deriving DecidableEq, Repr

/-! ### The parts of the state -/

/-- The MTE registers (rule R18). -/
structure Mte where
  /-- `m.busy`: 1 while a command runs -/
  busy : Bool
  /-- `m.op`: the command being run -/
  op : CmdOp
  /-- `m.upc`: the micro-program counter -/
  upc : MicroAddr
  /-- `m.addr`: the slave address -/
  addr : BitVec 7
  /-- `m.dir`: the direction -/
  dir : Dir
  /-- `m.nm1`: N − 1 -/
  nm1 : BitVec 8
  /-- `m.idx`: bytes completed so far -/
  idx : BitVec 9
  /-- `m.cnt`: reads left in the current poll loop -/
  cnt : BitVec 16
  /-- `m.armed`: a dropped master or busy flag means ArbitrationLost -/
  armed : Bool
  /-- `m.err`: the error kind carried to ABORT -/
  err : ErrKind
  /-- `m.aph`: the phase of ABORT -/
  aph : Bool
  /-- `m.nostop`: the last command's ABORT ended without seeing stop-sent -/
  nostop : Bool
  /-- `m.result`: the result of the last command -/
  result : ResultCode
  /-- `m.errupc`: the micro-pc that raised the last error -/
  errupc : MicroAddr
  /-- `m.clk`: the input clock of the last INIT, in Hz -/
  clk : BitVec 28
  /-- `m.mode`: the target mode of the last INIT -/
  mode : BusMode
  /-- `m.duty`: the duty of the last INIT -/
  duty : Duty
  /-- `m.freq`: the TCU's frequency field -/
  freq : BitVec 8
  /-- `m.trise`: the TCU's rise-time field -/
  trise : BitVec 8
  /-- `m.ccr`: the TCU's clock-control field -/
  ccr : BitVec 12
  /-- `m.fs`: the TCU's fast/standard bit -/
  fs : Bool
  /-- `m.dutybit`: the TCU's duty bit -/
  dutybit : Bool
  /-- `m.cfgvalid`: a TCU evaluation has been accepted -/
  cfgvalid : Bool
deriving DecidableEq, Repr

/-- The bus-controller registers (rule R30), its hidden state (rule R45) and the environment's bit (rule R47). -/
structure Bc where
  cr1 : Half
  cr2 : Half
  oar1 : Half
  oar2 : Half
  dr : Half
  sr1 : Half
  sr2 : Half
  ccr : Half
  trise : Half
  fltr : Half
  /-- `b.bmode` -/
  bmode : BMode
  /-- `b.txPending`: a data byte written to DR waits to be sent -/
  txPending : Bool
  /-- `b.sr1SeenSB`: SR1 was read while SB = 1 -/
  sr1SeenSB : Bool
  /-- `b.sr1SeenADDR`: SR1 was read while ADDR = 1 -/
  sr1SeenADDR : Bool
  /-- `b.otherBusy`: another master holds the bus (the environment's bit) -/
  otherBusy : Bool
deriving DecidableEq, Repr

/-- The set of sticky model faults recorded so far (rules R48, R210). -/
structure FaultSet where
  unwrittenBuf : Bool
  abortWithoutStop : Bool
deriving DecidableEq, Repr

/-- The transfer buffer: the bytes written since reset, by index, in rising order. An index that is not listed has its
"written" mark 0 (rule R52). -/
abbrev Memory := List Host.Cell

/-- The state of the block. -/
structure State where
  /-- the MTE registers (rule R18) -/
  m : Mte
  /-- the bus controller and the environment's bit (rules R30, R45, R47) -/
  b : Bc
  /-- BUF (rule R52) -/
  buf : Memory
  /-- the microprogram ROM (rule R86) -/
  rom : List Half
  /-- the parameters (rule R8) -/
  cfg : Config
  /-- the bus trace, oldest event first (rule R13) -/
  trace : List Event
  /-- the sticky model faults (rule R48) -/
  faults : FaultSet
  /-- the sticky refusal mark (rule R48) -/
  refusalMark : Bool
  /-- the host accesses still to make (rule R244) -/
  program : List HostStep
  /-- THE MODEL'S OWN: what the last completed host read returned (log entry 8) -/
  hostData : Option HostValue
  /-- THE MODEL'S OWN: what the last of the caller's operations returned (log entry 16) -/
  callResult : Option CallResult
  /-- THE MODEL'S OWN: the buffer a `read` of the caller fills (log entry 16) -/
  callerBuffer : Memory
  /-- THE MODEL'S OWN: the turns to come, with their draws (log entry 3) -/
  schedule : List Turn
  /-- THE MODEL'S OWN: how many turns were drawn from `Config.freeTurn` (log entry 3) -/
  turnsDrawn : Nat
deriving DecidableEq, Repr

/-! ### Reset (rule R225) -/

/-- Every MTE register is 0 at reset (rule R18). -/
def Mte.reset : Mte where
  busy := false
  op := .none
  upc := 0#6
  addr := 0#7
  dir := .write
  nm1 := 0#8
  idx := 0#9
  cnt := 0#16
  armed := false
  err := .none
  aph := false
  nostop := false
  result := .none
  errupc := 0#6
  clk := 0#28
  mode := .std
  duty := .d2
  freq := 0#8
  trise := 0#8
  ccr := 0#12
  fs := false
  dutybit := false
  cfgvalid := false

/-- The bus controller at reset (rules R30, R45, R47). -/
def Bc.reset : Bc where
  cr1 := 0x0000#16
  cr2 := 0x0000#16
  oar1 := 0x0000#16
  oar2 := 0x0000#16
  dr := 0x0000#16
  sr1 := 0x0000#16
  sr2 := 0x0000#16
  ccr := 0x0000#16
  trise := 0x0002#16
  fltr := 0x0000#16
  bmode := .idle
  txPending := false
  sr1SeenSB := false
  sr1SeenADDR := false
  otherBusy := false

/-- The state right after reset (rules R225, R226): idle, no command, an empty trace, no BUF byte written. -/
def State.reset : State where
  m := Mte.reset
  b := Bc.reset
  buf := []
  rom := romWords
  cfg := Config.launch
  trace := []
  faults := { unwrittenBuf := false, abortWithoutStop := false }
  refusalMark := false
  program := []
  hostData := none
  callResult := none
  callerBuffer := []
  schedule := []
  turnsDrawn := 0

/-! ### Whole-field updates -/

/-- Replace the MTE registers. -/
def State.withM (s : State) (m : Mte) : State := { s with m := m }

/-- Replace the bus controller. -/
def State.withB (s : State) (b : Bc) : State := { s with b := b }

/-- Replace BUF. -/
def State.withBuf (s : State) (buf : Memory) : State := { s with buf := buf }

/-- Append an event to the bus trace (rule R12's `emit`). -/
def State.emit (s : State) (ev : Event) : State := { s with trace := s.trace ++ [ev] }

/-- Set the sticky refusal mark; nothing else changes (rules R48, R211). -/
def State.markRefusal (s : State) : State := { s with refusalMark := true }

/-- Record a sticky model fault; nothing else changes (rules R48, R210, log entry 6). -/
def State.recordFault (s : State) (f : ModelFault) : State :=
  match f with
  | .unwrittenBuf => { s with faults := { s.faults with unwrittenBuf := true } }
  | .abortWithoutStop => { s with faults := { s.faults with abortWithoutStop := true } }

end Sys2Proof.Machine
end

