-- ==== Sys2Proof/Machine/Flags.lean ====
section
/-! DEFINITION. Bits of the bus-controller registers, the status flags (rules R36, R37, R44), and the updates of them
that several rules share. -/

namespace Sys2Proof.Machine

/-! ### One bit of a register -/

/-- Bit `n` of a register. -/
def flag (w : Half) (n : Nat) : Bool := w.getLsbD n

/-- A register with bit `n` set to `v`. -/
def setFlag (w : Half) (n : Nat) (v : Bool) : Half :=
  if v then w ||| BitVec.twoPow 16 n else w &&& ~~~ BitVec.twoPow 16 n

/-! ### Bit positions -/

/-- CR1.PE (rule R32). -/
abbrev cr1PE : Nat := 0
/-- CR1.SMBUS (rule R32). -/
abbrev cr1SMBUS : Nat := 1
/-- CR1.NOSTRETCH (rule R32). -/
abbrev cr1NOSTRETCH : Nat := 7
/-- CR1.START (rule R32). -/
abbrev cr1START : Nat := 8
/-- CR1.STOP (rule R32). -/
abbrev cr1STOP : Nat := 9
/-- CR1.ACK (rule R32). -/
abbrev cr1ACK : Nat := 10
/-- CR1.SWRST (rule R32). -/
abbrev cr1SWRST : Nat := 15

/-- SR1.SB (rule R36). -/
abbrev sr1SB : Nat := 0
/-- SR1.ADDR (rule R36). -/
abbrev sr1ADDR : Nat := 1
/-- SR1.BTF (rule R36). -/
abbrev sr1BTF : Nat := 2
/-- SR1.RXNE (rule R36). -/
abbrev sr1RXNE : Nat := 6
/-- SR1.TXE (rule R36). -/
abbrev sr1TXE : Nat := 7
/-- SR1.ARLO (rule R36). -/
abbrev sr1ARLO : Nat := 9
/-- SR1.AF (rule R36). -/
abbrev sr1AF : Nat := 10

/-- SR2.MSL (rule R37). -/
abbrev sr2MSL : Nat := 0
/-- SR2.BUSY (rule R37). -/
abbrev sr2BUSY : Nat := 1
/-- SR2.TRA (rule R37). -/
abbrev sr2TRA : Nat := 2

/-! ### Implemented bits of each register: the others are `res` and read 0 (rule R31) -/

/-- CR1: all but [2] and [14] (rule R32). -/
def cr1Bits : Half := 0xBFFB#16
/-- CR2: [12:0] (rule R33). -/
def cr2Bits : Half := 0x1FFF#16
/-- DR: [7:0] (rule R35). -/
def drBits : Half := 0x00FF#16
/-- SR1's `rc_w0` bits: [12:8], [14] and [15] (rule R36). -/
def sr1ClearBits : Half := 0xDF00#16
/-- CCR: [11:0], [14] and [15] (rule R42). -/
def ccrBits : Half := 0xCFFF#16
/-- TRISE: [7:0] (rule R42). -/
def triseBits : Half := 0x00FF#16
/-- FLTR: [4:0] (rule R42). -/
def fltrBits : Half := 0x001F#16

/-! ### Bus-controller modes -/

/-- *master* (43_bus_controller.md, shorthand): not IDLE and not LOST. -/
def BMode.isMaster : BMode → Bool
  | .idle | .lost => false
  | .mSb | .mAddr | .mTx | .mRx | .mRxEnd | .mNacked => true

/-! ### Shared flag updates -/

/-- `dropMaster` (43_bus_controller.md, shorthand). -/
def Bc.dropMaster (b : Bc) : Bc :=
  { b with
    sr2 := setFlag (setFlag (setFlag b.sr2 sr2MSL false) sr2TRA false) sr2BUSY b.otherBusy
    sr1 := setFlag (setFlag (setFlag (setFlag b.sr1 sr1SB false) sr1ADDR false) sr1TXE false) sr1BTF false
    sr1SeenSB := false
    sr1SeenADDR := false
    txPending := false
    bmode := .idle }

/-- What losing arbitration does to the bus controller in both phases (rules R172, R173): ARLO, no longer master, and
the winner holds the bus. -/
def Bc.loseArbitration (b : Bc) : Bc :=
  { b with
    sr1 := setFlag b.sr1 sr1ARLO true
    sr2 := setFlag (setFlag b.sr2 sr2MSL false) sr2TRA false
    otherBusy := true
    bmode := .lost }

/-- The effects of a CR1 write of `v` with PE = 0, beyond the fault (rule R40). -/
def Bc.disable (b : Bc) (v : Half) : Bc :=
  { b with
    cr1 := setFlag (setFlag (setFlag (v &&& cr1Bits) cr1START false) cr1STOP false) cr1ACK false
    sr1 := 0x0000#16
    sr2 := setFlag (setFlag (setFlag b.sr2 sr2MSL false) sr2TRA false) sr2BUSY b.otherBusy
    bmode := .idle
    txPending := false
    sr1SeenSB := false
    sr1SeenADDR := false }

/-- SR1 after a read of SR2 that clears ADDR; in transmit the buffer is then empty (rule R38). -/
def Bc.clearAddr (b : Bc) : Bc :=
  { b with
    sr1 :=
      if b.bmode = .mTx then setFlag (setFlag b.sr1 sr1ADDR false) sr1TXE true
      else setFlag b.sr1 sr1ADDR false
    sr1SeenADDR := false }

end Sys2Proof.Machine
end

