-- ==== Sys2Proof/Machine/Operands.lean ====
section
/-! DEFINITION. Operand assembly (rule R88), register images (rules R27, R28) and the words the initialisation
micro-operations write (rules R119 to R122). -/

namespace Sys2Proof.Machine

/-- The direction as its bit: "write(0)" and "read(1)" (rule R59). -/
def Dir.bit : Dir → BitVec 1
  | .write => 0#1
  | .read => 1#1

/-- The address byte, the slave address above the direction bit (rules R59, R88). -/
def addressByte (m : Mte) : Byte := m.addr ++ m.dir.bit

/-- The length N of the transaction, 1 to 256 (rule R88). -/
def transferLength (m : Mte) : Nat := m.nm1.toNat + 1

/-- A byte as a 16-bit register value, `zext_16` (rule R10). -/
def zext16 (v : Byte) : Half := v.setWidth 16

/-- The low byte of a register, `v[7:0]` (rule R10). -/
def lowByte (v : Half) : Byte := v.setWidth 8

/-- CR2 with its FREQ field [7:0] replaced (rules R33, R120). -/
def withFreq (cr2 : Half) (freq : BitVec 8) : Half := (cr2 &&& 0xFF00#16) ||| zext16 freq

/-- What WR_CCR writes: F/S, DUTY and the clock-control field (rule R121). -/
def ccrWord (m : Mte) : Half := BitVec.ofBool m.fs ++ BitVec.ofBool m.dutybit ++ 0#2 ++ m.ccr

/-- What SET_OPTS writes to FLTR: ANFOFF above DNF (rule R119). -/
def fltrWord (c : Config) : Half := 0#11 ++ BitVec.ofBool c.anfOffCfg ++ c.dnfCfg

/-- The code of a result (rule R25). -/
def ResultCode.code : ResultCode → BitVec 4
  | .none => 0#4
  | .ok => 1#4
  | .configError => 2#4
  | .timeout => 3#4
  | .nackReceived => 4#4
  | .arbitrationLost => 5#4
  | .badCommand => 6#4

/-- The code of an error kind, `m.err` (rule R18). -/
def ErrKind.code : ErrKind → BitVec 3
  | .none => 0#3
  | .timeout => 3#3
  | .nackReceived => 4#3
  | .arbitrationLost => 5#3

/-- The code of a command, `m.op` (rules R18, R80). -/
def CmdOp.code : CmdOp → BitVec 2
  | .none => 0#2
  | .init => 1#2
  | .write => 2#2
  | .read => 3#2

/-- The result that ABORT reports for an error kind, `m.result <- m.err` (rule R204). -/
def ErrKind.result : ErrKind → ResultCode
  | .none => .none
  | .timeout => .timeout
  | .nackReceived => .nackReceived
  | .arbitrationLost => .arbitrationLost

/-- The STATUS image (rule R27). -/
def statusImage (m : Mte) : Word :=
  0#7 ++ m.idx ++ 0#2 ++ m.errupc ++ m.result.code ++ 0#2 ++ BitVec.ofBool m.nostop ++ BitVec.ofBool m.busy

/-- The CFGOUT image (rule R28). -/
def cfgoutImage (m : Mte) : Word :=
  BitVec.ofBool m.cfgvalid ++ 0#1 ++ BitVec.ofBool m.dutybit ++ BitVec.ofBool m.fs ++ m.ccr ++ m.trise ++ m.freq

/-- The address of an HI offset (rules R51, R63). -/
def hiAddress (c : Config) (off : Nat) : Nat := c.hiBase.toNat + off

/-- The address of a bus-controller offset (rules R50, R63). -/
def bcAddress (c : Config) (off : Nat) : Nat := c.i2cBase.toNat + off

end Sys2Proof.Machine
end

