-- ==== Sys2Proof/Machine/Ops.lean ====
section
/-! DEFINITION. The shared operations: BUF (rule R52), the bus-controller accesses (rules R12, R31 to R43), the
sequencer (rule R85), raising an error and the end of ABORT (rules R132, R204), and how a micro-operation ends. -/

namespace Sys2Proof.Machine

/-! ### BUF (rules R52 to R54) -/

/-- The byte at an index, if it was written since reset. -/
def Memory.read (mem : Memory) (i : Nat) : Option Byte :=
  match mem with
  | [] => none
  | (a, v) :: rest => if i = a then some v else Memory.read rest i

/-- Write a byte, which also marks it written; the indexes stay in strictly rising order. -/
def Memory.write (mem : Memory) (i : Nat) (v : Byte) : Memory :=
  match mem with
  | [] => [(i, v)]
  | (a, w) :: rest =>
    if i < a then (i, v) :: (a, w) :: rest
    else if i = a then (i, v) :: rest
    else (a, w) :: Memory.write rest i v

/-- Every listed index is above `lo`'s bound and below `BUF_DEPTH`, and the indexes rise strictly. -/
def Memory.wfFrom (lo : Nat) : Memory → Bool
  | [] => true
  | (a, _) :: rest => decide (lo ≤ a) && decide (a < bufDepth) && Memory.wfFrom (a + 1) rest

/-- The canonical form of BUF: indexes 0 to 255, strictly rising. An unlisted index has no value, so no entry can equal
what an unlisted one reads as. -/
def Memory.wf (mem : Memory) : Bool := Memory.wfFrom 0 mem

/-! ### How the body of a micro-operation ends -/

/-- The answer of a bus-controller access, or of the body of a micro-operation. -/
inductive Micro (α : Type) where
  /-- it is done -/
  | ok (a : α)
  /-- it records a sticky fault (rule R210) -/
  | fault (f : ModelFault)
  /-- `UNMODELLED_BC_ACCESS`: it is refused (rule R43) -/
  | refuse
  /-- it stops in a state no run reaches -/
  | stop (f : Fault)

/-- Sequencing of accesses: what follows runs only when the access before it is done. -/
def Micro.bind {α β : Type} (x : Micro α) (f : α → Micro β) : Micro β :=
  match x with
  | .ok a => f a
  | .fault e => .fault e
  | .refuse => .refuse
  | .stop e => .stop e

/-! ### The bus-controller registers (rules R30 to R43) -/

/-- The ten registers of rule R30. -/
inductive BcReg where
  | cr1
  | cr2
  | oar1
  | oar2
  | dr
  | sr1
  | sr2
  | ccr
  | trise
  | fltr
deriving DecidableEq, Repr

/-- The register at a byte offset from `I2C_BASE` (rule R30). Other offsets are no registers. -/
def bcRegAt (off : Nat) : Option BcReg :=
  match off with
  | 0x00 => some .cr1
  | 0x04 => some .cr2
  | 0x08 => some .oar1
  | 0x0C => some .oar2
  | 0x10 => some .dr
  | 0x14 => some .sr1
  | 0x18 => some .sr2
  | 0x1C => some .ccr
  | 0x20 => some .trise
  | 0x24 => some .fltr
  | _ => none

/-- Read SR1: the value, and the first halves of the SB and ADDR clears (rule R38). -/
def readSr1 (s : State) : Half × State :=
  (s.b.sr1,
   s.withB { s.b with
     sr1SeenSB := s.b.sr1SeenSB || flag s.b.sr1 sr1SB
     sr1SeenADDR := s.b.sr1SeenADDR || flag s.b.sr1 sr1ADDR })

/-- Read SR2: the value before the clear, and the clear of ADDR (rule R38). -/
def readSr2 (s : State) : Half × State :=
  (s.b.sr2, if flag s.b.sr1 sr1ADDR && s.b.sr1SeenADDR then s.withB s.b.clearAddr else s)

/-- Read DR: the byte, and the clear of RXNE and BTF (rule R39). -/
def readDr (s : State) : Half × State :=
  (zext16 (lowByte s.b.dr),
   s.withB { s.b with sr1 := setFlag (setFlag s.b.sr1 sr1RXNE false) sr1BTF false })

/-- `BCRead(off)` (rule R12): the value and the state after the register's read side effects. -/
def bcRead (off : Nat) (s : State) : Micro (Half × State) :=
  match bcRegAt off with
  | some .cr1 => .ok (s.b.cr1, s)
  | some .cr2 => .ok (s.b.cr2, s)
  | some .oar1 => .refuse
  | some .oar2 => .refuse
  | some .dr => .ok (readDr s)
  | some .sr1 => .ok (readSr1 s)
  | some .sr2 => .ok (readSr2 s)
  | some .ccr => .ok (s.b.ccr, s)
  | some .trise => .ok (s.b.trise, s)
  | some .fltr => .ok (s.b.fltr, s)
  | none => .refuse

/-- Write CR1 (rules R32, R40, R43): SWRST = 1 is refused; PE = 0 disables the bus controller, which faults while it
is master; any other write takes the written bits, `res` bits staying 0. -/
def writeCr1 (v : Half) (s : State) : Micro State :=
  if flag v cr1SWRST then .refuse
  else if flag v cr1PE then .ok (s.withB { s.b with cr1 := v &&& cr1Bits })
  else if s.b.bmode.isMaster then .fault .abortWithoutStop
  else .ok (s.withB (s.b.disable v))

/-- Write DR (rule R39): the address byte after a seen SB, a data byte when the transmitter is empty, else the byte is
stored only. -/
def writeDr (v : Half) (s : State) : State :=
  if flag s.b.sr1 sr1SB && s.b.sr1SeenSB then
    s.withB { s.b with dr := v &&& drBits, sr1 := setFlag s.b.sr1 sr1SB false, sr1SeenSB := false, bmode := .mAddr }
  else if s.b.bmode = .mTx ∧ flag s.b.sr1 sr1TXE then
    s.withB { s.b with
      dr := v &&& drBits
      sr1 := setFlag (setFlag s.b.sr1 sr1TXE false) sr1BTF false
      txPending := true }
  else s.withB { s.b with dr := v &&& drBits }

/-- Write SR1: `SR1[b] <- SR1[b] ∧ v[b]` for the `rc_w0` bits; the others ignore the write (rule R36). -/
def writeSr1 (v : Half) (s : State) : State :=
  s.withB { s.b with sr1 := s.b.sr1 &&& (v ||| ~~~ sr1ClearBits) }

/-- `BCWrite(off, v)` (rule R12), with each register's write semantics. SR2 is read-only: the write is ignored (rules
R31, R37). -/
def bcWrite (off : Nat) (v : Half) (s : State) : Micro State :=
  match bcRegAt off with
  | some .cr1 => writeCr1 v s
  | some .cr2 => .ok (s.withB { s.b with cr2 := v &&& cr2Bits })
  | some .oar1 => .refuse
  | some .oar2 => .refuse
  | some .dr => .ok (writeDr v s)
  | some .sr1 => .ok (writeSr1 v s)
  | some .sr2 => .ok s
  | some .ccr => .ok (s.withB { s.b with ccr := v &&& ccrBits })
  | some .trise => .ok (s.withB { s.b with trise := v &&& triseBits })
  | some .fltr => .ok (s.withB { s.b with fltr := v &&& fltrBits })
  | none => .refuse

/-- `BCSet`: one `BCRead` and one `BCWrite` of the value with some bits changed (rule R12). -/
def bcSet (off : Nat) (change : Half → Half) (s : State) : Micro State :=
  (bcRead off s).bind fun r => bcWrite off (change r.1) r.2

/-! ### The sequencer (rules R20, R23, R85) -/

/-- The micro-address of ABORT, to which every raised error goes (rules R86, R132). -/
def abortEntry : MicroAddr := 35#6

/-- Whether an OP code is a poll or ABORT (rules R23, R87). -/
def isPollOp (op : BitVec 5) : Bool :=
  match op.toNat with
  | 0x0B | 0x0C | 0x0E | 0x10 | 0x12 | 0x14 | 0x15 | 0x18 => true
  | _ => false

/-- Whether a micro-address holds a poll or ABORT (rule R23). -/
def entersPoll (rom : List Half) (a : MicroAddr) : Bool :=
  match rom[a.toNat]? with
  | some w => isPollOp (w.extractLsb' 0 5)
  | none => false

/-- Move `m.upc`. `m.cnt` is loaded with `POLL_BUDGET` when the new address differs from the old one and holds a poll
or ABORT (rules R23, R85). -/
def setUpc (a : MicroAddr) (s : State) : State :=
  s.withM { s.m with
    upc := a
    cnt := if a ≠ s.m.upc ∧ entersPoll s.rom a then s.cfg.pollBudget else s.m.cnt }

/-- Apply SEQ when a micro-operation completes (rule R85). END leaves `m.upc` and ends the command; CFGCHK after a
verdict that was not REJECT goes on. -/
def applySeq (seq : Seq) (tgt : MicroAddr) (s : State) : State :=
  match seq with
  | .next => setUpc (s.m.upc + 1) s
  | .endCmd => s.withM { s.m with busy := false }
  | .loopw => if s.m.idx.toNat < transferLength s.m then setUpc tgt s else setUpc (s.m.upc + 1) s
  | .loopr => if s.m.idx.toNat < transferLength s.m - 1 then setUpc tgt s else setUpc (s.m.upc + 1) s
  | .skip1 => if transferLength s.m = 1 then setUpc tgt s else setUpc (s.m.upc + 1) s
  | .cfgchk => setUpc (s.m.upc + 1) s

/-! ### Errors: the entry and the return (rules R132, R204, R207, R208) -/

/-- `raise E`: the error kind and the raising micro-pc are saved, and control goes to ABORT (rules R132, R207). -/
def raise (e : ErrKind) (s : State) : State :=
  setUpc abortEntry (s.withM { s.m with err := e, errupc := s.m.upc })

/-- `finish` of ABORT: the command ends with the error's code; `m.errupc` and `m.idx` are kept (rules R204, R208). -/
def abortFinish (s : State) : State :=
  s.withM { s.m with result := s.m.err.result, err := .none, aph := false, busy := false }

/-! ### The end of a micro-operation -/

/-- One MTE step from the body of its micro-operation: SEQ is applied when the body is done; a fault or a refusal
changes nothing but its sticky mark (rules R85, R210, R211, log entries 6 and 7). -/
def finishMicro (seq : Seq) (tgt : MicroAddr) (s : State) (body : Micro State) : Host.Outcome State Fault Refusal :=
  match body with
  | .ok t => .next (applySeq seq tgt t)
  | .fault f => .next (s.recordFault f)
  | .refuse => .next s.markRefusal
  | .stop f => .fault f

end Sys2Proof.Machine
end

