-- ==== Sys2Proof/Machine/BusController.lean ====
section
/-! DEFINITION. The steps of the bus controller and of the environment (rules R170 to R178). Each is a guarded atomic
step: `none` when its guard does not hold. -/

namespace Sys2Proof.Machine

/-- START generation (rule R170). DEDUCED: its guard does not look at CR1.STOP, so it may come while the STOP of a
given-up ABORT is pending (log entries 24 and 25). -/
def bcStart (s : State) : Option State :=
  if flag s.b.cr1 cr1PE ∧ flag s.b.cr1 cr1START ∧ s.b.bmode = .idle ∧ ¬ flag s.b.sr2 sr2BUSY then
    some ((s.emit .start).withB { s.b with
      sr1 := setFlag (setFlag (setFlag s.b.sr1 sr1SB true) sr1TXE false) sr1BTF false
      sr2 := setFlag (setFlag s.b.sr2 sr2MSL true) sr2BUSY true
      cr1 := setFlag s.b.cr1 cr1START false
      sr1SeenSB := false
      bmode := .mSb })
  else none

/-- Address byte, with the slave's answer (rule R171). -/
def bcAddr (ans : Answer) (s : State) : Option State :=
  if s.b.bmode = .mAddr then
    let sent := s.emit (.addr (lowByte s.b.dr))
    match ans with
    | .ack =>
      some ((sent.emit .ack).withB { s.b with
        sr1 := setFlag s.b.sr1 sr1ADDR true
        sr1SeenADDR := false
        sr2 := setFlag s.b.sr2 sr2TRA (!flag s.b.dr 0)
        bmode := if flag s.b.dr 0 then .mRx else .mTx })
    | .nack =>
      some ((sent.emit .nack).withB { s.b with sr1 := setFlag s.b.sr1 sr1AF true, bmode := .mNacked })
  else none

/-- Arbitration loss in the address phase (rule R172). -/
def bcAddrArb (s : State) : Option State :=
  if s.cfg.multiMaster ∧ s.b.bmode = .mAddr then some ((s.emit .arbLost).withB s.b.loseArbitration) else none

/-- Transmitted data byte, with its draw (rule R173). Arbitration can be lost only when `MULTI_MASTER` is true. -/
def bcTx (draw : TxDraw) (s : State) : Option State :=
  if s.b.bmode = .mTx ∧ s.b.txPending then
    match draw with
    | .arb =>
      if s.cfg.multiMaster then
        some ((s.emit .arbLost).withB { s.b.loseArbitration with txPending := false })
      else none
    | .ack =>
      some (((s.emit (.data (lowByte s.b.dr))).emit .ack).withB { s.b with
        txPending := false
        sr1 := setFlag (setFlag s.b.sr1 sr1TXE true) sr1BTF true })
    | .nack =>
      some (((s.emit (.data (lowByte s.b.dr))).emit .nack).withB { s.b with
        txPending := false
        sr1 := setFlag s.b.sr1 sr1AF true
        bmode := .mNacked })
  else none

/-- The micro-address of NACK_STOP, which holds the receive step back (rule R174). -/
def nackStopEntry : MicroAddr := 30#6

/-- The guard of the receive step (rule R174); its last conjunct is the window of rule R151. -/
def bcRxEnabled (s : State) : Bool :=
  decide (s.b.bmode = .mRx) && !flag s.b.sr1 sr1ADDR && !flag s.b.sr1 sr1RXNE &&
    !(s.cfg.lastByteWindowMet && s.m.busy && decide (s.m.upc = nackStopEntry))

/-- Received data byte, with the byte the slave sends (rule R174). The master answers with CR1.ACK; a requested STOP
follows in the same step. -/
def bcRx (d : Byte) (s : State) : Option State :=
  if bcRxEnabled s then
    let answered := (s.emit (.data d)).emit (if flag s.b.cr1 cr1ACK then .ack else .nack)
    let b := { s.b with dr := zext16 d, sr1 := setFlag s.b.sr1 sr1RXNE true }
    if flag s.b.cr1 cr1STOP then
      some ((answered.emit .stop).withB ({ b with cr1 := setFlag b.cr1 cr1STOP false } : Bc).dropMaster)
    else if flag s.b.cr1 cr1ACK then some (answered.withB b)
    else some (answered.withB { b with bmode := .mRxEnd })
  else none

/-- The stalled states of rule R175: master, with no byte in flight. -/
def Bc.stalled (b : Bc) : Bool :=
  match b.bmode with
  | .mSb | .mNacked | .mRxEnd => true
  | .mTx => !b.txPending
  | .mRx => flag b.sr1 sr1ADDR || flag b.sr1 sr1RXNE
  | .idle | .mAddr | .lost => false

/-- STOP while master and stalled (rule R175). DEDUCED: a STOP that a given-up ABORT left is sent under the same guard,
also while a later WRITE or READ runs, whatever the tables of rules R202 and R203 say of that (log entry 25). -/
def bcStop (s : State) : Option State :=
  if flag s.b.cr1 cr1STOP && s.b.stalled then
    some ((s.emit .stop).withB ({ s.b with cr1 := setFlag s.b.cr1 cr1STOP false } : Bc).dropMaster)
  else none

/-- STOP while not master (rule R176): no trace event. -/
def bcStopIdle (s : State) : Option State :=
  if flag s.b.cr1 cr1STOP && !s.b.bmode.isMaster then
    some (s.withB { s.b with cr1 := setFlag s.b.cr1 cr1STOP false })
  else none

/-- Another master claims the bus (rule R177). -/
def envClaim (s : State) : Option State :=
  if s.cfg.multiMaster ∧ s.b.bmode = .idle ∧ ¬ flag s.b.sr2 sr2BUSY then
    some (s.withB { s.b with otherBusy := true, sr2 := setFlag s.b.sr2 sr2BUSY true })
  else none

/-- Another master releases the bus (rule R178). -/
def envRelease (s : State) : Option State :=
  if s.b.otherBusy && !s.b.bmode.isMaster then
    some (s.withB { s.b with otherBusy := false, sr2 := setFlag s.b.sr2 sr2BUSY false, bmode := .idle })
  else none

/-- The step of the bus controller or the environment that a turn names; `none` for a turn of another agent and for a
step whose guard does not hold (rule R180). -/
def busStep (t : Turn) (s : State) : Option State :=
  match t with
  | .bcStart => bcStart s
  | .bcAddr ans => bcAddr ans s
  | .bcAddrArb => bcAddrArb s
  | .bcTx draw => bcTx draw s
  | .bcRx d => bcRx d s
  | .bcStop => bcStop s
  | .bcStopIdle => bcStopIdle s
  | .envClaim => envClaim s
  | .envRelease => envRelease s
  | .host => none
  | .mte => none

/-- Whether some step of rules R170 to R176 is enabled (rule R244), whatever the draw. -/
def bcStepEnabled (s : State) : Bool :=
  (bcStart s).isSome || (bcAddr .ack s).isSome || (bcAddrArb s).isSome || (bcTx .ack s).isSome ||
    (bcRx 0#8 s).isSome || (bcStop s).isSome || (bcStopIdle s).isSome

end Sys2Proof.Machine
end

