-- ==== Sys2Proof/Machine/Abort.lean ====
section
/-! DEFINITION. The abort path (rule R204): one MTE step per pass. -/

namespace Sys2Proof.Machine

/-- What phase 0 writes to SR1: AF [10] and ARLO [9] are 0 (rule R204). -/
def abortSr1 : Half := 0xF9FF#16

/-- Phase 0 (rule R204): START and ACK cleared and STOP set in one read-modify-write of CR1, AF and ARLO cleared. -/
def abortAssertStop (s : State) : Micro State :=
  ((bcSet 0x00 (fun v => setFlag (setFlag (setFlag v cr1START false) cr1STOP true) cr1ACK false) s).bind fun t =>
    bcWrite 0x14 abortSr1 t).bind fun t => .ok (t.withM { t.m with armed := false, aph := true })

/-- Phase 1 (rule R204): one read of CR1. The command ends on stop-sent, or when the budget runs out, which leaves
`m.nostop` = 1. -/
def abortPollStop (seq : Seq) (tgt : MicroAddr) (s : State) : State :=
  if !flag s.b.cr1 cr1STOP then applySeq seq tgt (abortFinish s)
  else if s.cfg.pollBudget = 0#16 then s
  else if s.m.cnt - 1 = 0#16 then
    applySeq seq tgt (abortFinish (s.withM { s.m with cnt := s.m.cnt - 1, nostop := true }))
  else s.withM { s.m with cnt := s.m.cnt - 1 }

/-- ABORT (rule R204). In phase 0 `m.upc` stays, so SEQ is applied only when the command ends. -/
def execAbort (seq : Seq) (tgt : MicroAddr) (s : State) : Host.Outcome State Fault Refusal :=
  if s.m.aph then .next (abortPollStop seq tgt s)
  else
    match abortAssertStop s with
    | .ok t => .next t
    | .fault f => .next (s.recordFault f)
    | .refuse => .next s.markRefusal
    | .stop f => .fault f

end Sys2Proof.Machine
end

