-- ==== Sys2Proof/Machine/Commands.lean ====
section
/-! DEFINITION. The meanings of the four command descriptors: what a host write of one to CMD does (rules R83, R84).
A CMD write while a command runs is refused (rule R56). -/

namespace Sys2Proof.Machine

/-- A command is taken only while the MTE is idle; otherwise the write is refused and has no effect (rules R56, R83). -/
def whenIdle (s : State) (t : State) : Host.Outcome State Fault Refusal :=
  .next (if s.m.busy then s.markRefusal else t)

/-- What every accepted command clears, and `m.busy` set (rule R83). DEDUCED: `m.result` becomes NONE here, as rule R83's
pseudocode writes, although rule R25's table says that NONE is set by reset only (log entry 14). -/
def acceptCommand (op : CmdOp) (m : Mte) : Mte :=
  { m with
    op := op, result := .none, errupc := 0#6, err := .none, armed := false, nostop := false, busy := true }

/-- What an accepted WRITE or READ latches (rule R83). -/
def acceptTransfer (op : CmdOp) (dir : Dir) (entry : MicroAddr) (addr : BitVec 7) (lenm1 : BitVec 8) (m : Mte) : Mte :=
  { acceptCommand op m with addr := addr, dir := dir, nm1 := lenm1, idx := 0#9, upc := entry }

/-- INIT (rules R83, R115): latch the configuration; ROM entry 0. -/
def execInit (mode : BusMode) (duty : Duty) (clk : BitVec 28) (s : State) : Host.Outcome State Fault Refusal :=
  whenIdle s (s.withM { acceptCommand .init s.m with clk := clk, mode := mode, duty := duty, upc := 0#6 })

/-- WRITE (rules R83, R130): latch the transaction; ROM entry 9. -/
def execWrite (addr : BitVec 7) (lenm1 : BitVec 8) (s : State) : Host.Outcome State Fault Refusal :=
  whenIdle s (s.withM (acceptTransfer .write .write 9#6 addr lenm1 s.m))

/-- READ (rules R83, R131): latch the transaction; ROM entry 21. -/
def execRead (addr : BitVec 7) (lenm1 : BitVec 8) (s : State) : Host.Outcome State Fault Refusal :=
  whenIdle s (s.withM (acceptTransfer .read .read 21#6 addr lenm1 s.m))

/-- BAD_COMMAND (rule R84): a defined outcome that starts nothing. The malformed word itself plays no part. -/
def execBadCommand (_word : Word) (s : State) : Host.Outcome State Fault Refusal :=
  whenIdle s (s.withM { s.m with result := .badCommand, errupc := 0#6 })

end Sys2Proof.Machine
end

