-- ==== Sys2Proof/Machine/Tcu.lean ====
section
/-! DEFINITION. The timing-divider configuration unit: a combinational function (rules R100 to R109), on natural
numbers with truncating division (rule R11). -/

namespace Sys2Proof.Machine

/-- What an ACCEPT carries (rule R100). -/
structure TcuOut where
  freq : BitVec 8
  trise : BitVec 8
  ccr : BitVec 12
  fs : Bool
  dutybit : Bool
deriving DecidableEq, Repr

/-- The frequency field (rule R101). -/
def tcuFreq (clk : Nat) : Nat := clk / 1000000

/-- The rise bound of a mode, in ns (rule R103). -/
def tcuRiseNs : BusMode → Nat
  | .std => riseNsStd
  | .fast => riseNsFast

/-- The rise-time field (rule R103). -/
def tcuTrise (clk : Nat) (mode : BusMode) : Nat := tcuFreq clk * tcuRiseNs mode / 1000 + 1

/-- The clock-control field (rule R105). -/
def tcuCcr (clk : Nat) (mode : BusMode) (duty : Duty) : Nat :=
  match mode, duty with
  | .std, _ => clk / (2 * sclStd)
  | .fast, .d2 => clk / (3 * sclFast)
  | .fast, .d169 => clk / (25 * sclFast)

/-- `CCR_MIN` of a mode (rule R107). -/
def tcuCcrMin : BusMode → Nat
  | .std => ccrMinStd
  | .fast => ccrMinFast

/-- The TCU (rules R108, R109): REJECT is `none`. No value is narrowed before its check has accepted it. -/
def tcu (clk : Nat) (mode : BusMode) (duty : Duty) : Option TcuOut :=
  if tcuFreq clk < freqMin ∨ freqMax < tcuFreq clk then none
  else if triseMax < tcuTrise clk mode then none
  else if ccrMax < tcuCcr clk mode duty ∨ tcuCcr clk mode duty < tcuCcrMin mode then none
  else some {
    freq := BitVec.ofNat 8 (tcuFreq clk)
    trise := BitVec.ofNat 8 (tcuTrise clk mode)
    ccr := BitVec.ofNat 12 (tcuCcr clk mode duty)
    fs := decide (mode = .fast)
    dutybit := decide (mode = .fast ∧ duty = .d169) }

end Sys2Proof.Machine
end

