-- ==== Sys2Proof/Machine/InitOps.lean ====
section
/-! DEFINITION. The initialisation micro-operations (rules R116 to R123). -/

namespace Sys2Proof.Machine

/-- What an accepting TCU_EVAL latches (rules R26, R116). -/
def latchTcu (o : TcuOut) (m : Mte) : Mte :=
  { m with freq := o.freq, trise := o.trise, ccr := o.ccr, fs := o.fs, dutybit := o.dutybit, cfgvalid := true }

/-- TCU_EVAL (rule R116). A REJECT ends the command directly with CONFIG_ERROR. -/
def execTcuEval (seq : Seq) (tgt : MicroAddr) (s : State) : Host.Outcome State Fault Refusal :=
  .next
    (match tcu s.m.clk.toNat s.m.mode s.m.duty with
     | some o => applySeq seq tgt (s.withM (latchTcu o s.m))
     | none => s.withM { s.m with result := .configError, errupc := 0#6, busy := false })

/-- PE_OFF (rule R117): `BCSet(CR1.PE, 0)`. -/
def execPeOff (seq : Seq) (tgt : MicroAddr) (s : State) : Host.Outcome State Fault Refusal :=
  finishMicro seq tgt s (bcSet 0x00 (fun v => setFlag v cr1PE false) s)

/-- SEL_I2C (rule R118): `BCSet(CR1.SMBUS, 0)`. -/
def execSelI2c (seq : Seq) (tgt : MicroAddr) (s : State) : Host.Outcome State Fault Refusal :=
  finishMicro seq tgt s (bcSet 0x00 (fun v => setFlag v cr1SMBUS false) s)

/-- SET_OPTS (rule R119): `BCSet(CR1.NOSTRETCH, NOSTRETCH_CFG)`, then the FLTR write, in one step. -/
def execSetOpts (seq : Seq) (tgt : MicroAddr) (s : State) : Host.Outcome State Fault Refusal :=
  finishMicro seq tgt s
    ((bcSet 0x00 (fun v => setFlag v cr1NOSTRETCH s.cfg.noStretchCfg) s).bind fun t =>
      bcWrite 0x24 (fltrWord t.cfg) t)

/-- WR_FREQ (rule R120): `BCSet(CR2.FREQ, m.freq)`. -/
def execWrFreq (seq : Seq) (tgt : MicroAddr) (s : State) : Host.Outcome State Fault Refusal :=
  finishMicro seq tgt s (bcSet 0x04 (fun v => withFreq v s.m.freq) s)

/-- WR_CCR (rule R121). -/
def execWrCcr (seq : Seq) (tgt : MicroAddr) (s : State) : Host.Outcome State Fault Refusal :=
  finishMicro seq tgt s (bcWrite 0x1C (ccrWord s.m) s)

/-- WR_TRISE (rule R122). -/
def execWrTrise (seq : Seq) (tgt : MicroAddr) (s : State) : Host.Outcome State Fault Refusal :=
  finishMicro seq tgt s (bcWrite 0x20 (zext16 s.m.trise) s)

/-- PE_ON (rule R123): `BCSet(CR1.PE, 1)`. -/
def execPeOn (seq : Seq) (tgt : MicroAddr) (s : State) : Host.Outcome State Fault Refusal :=
  finishMicro seq tgt s (bcSet 0x00 (fun v => setFlag v cr1PE true) s)

end Sys2Proof.Machine
end

