-- ==== Sys2Proof/Machine/Polls.lean ====
section
/-! DEFINITION. The poll micro-operations: one read iteration each (rules R132 to R134). -/

namespace Sys2Proof.Machine

/-- When a poll reads SR2 (rule R134). -/
inductive Sr2Read where
  | never
  | always
  | whenArmed
deriving DecidableEq, Repr

/-- The condition a poll waits for (rule R134). -/
inductive PollCond where
  | sb
  | masterBusy
  | addr
  | txe
  | btf
  | rxne
  | stopSent
deriving DecidableEq, Repr

/-- The armed check of a poll (rule R134). -/
inductive ArmedCheck where
  | none
  | arlo
  | arloMasterBusy
deriving DecidableEq, Repr

/-- A row of the table of rule R134. -/
structure PollRow where
  readsCr1 : Bool
  readsSr1 : Bool
  readsSr2 : Sr2Read
  cond : PollCond
  nackCheck : Bool
  armedCheck : ArmedCheck
deriving DecidableEq, Repr

/-- The values read in one iteration; a register that is not read counts as 0. -/
structure PollSample where
  cr1 : Half
  sr1 : Half
  sr2 : Half
deriving DecidableEq, Repr

/-- Whether an iteration reads SR2. -/
def Sr2Read.now (r : Sr2Read) (armed : Bool) : Bool :=
  match r with
  | .never => false
  | .always => true
  | .whenArmed => armed

/-- The reads of one iteration, in the order CR1, SR1, SR2, with their side effects (rules R38, R132). -/
def pollReads (row : PollRow) (s : State) : PollSample × State :=
  let r1 : Half × State := if row.readsSr1 then readSr1 s else (0#16, s)
  let r2 : Half × State := if row.readsSr2.now s.m.armed then readSr2 r1.2 else (0#16, r1.2)
  ({ cr1 := if row.readsCr1 then s.b.cr1 else 0#16, sr1 := r1.1, sr2 := r2.1 }, r2.2)

/-- Whether the armed check fails on the values read (rule R134). DEDUCED: MSL or BUSY read as 0 fails it at every poll of
the window, also where rule R203's table finds no way to it (log entry 25). -/
def ArmedCheck.fails (c : ArmedCheck) (v : PollSample) : Bool :=
  match c with
  | .none => false
  | .arlo => flag v.sr1 sr1ARLO
  | .arloMasterBusy => flag v.sr1 sr1ARLO || !flag v.sr2 sr2MSL || !flag v.sr2 sr2BUSY

/-- Whether the condition holds on the values read (rule R134); stop-sent is CR1.STOP = 0 (rule R41). -/
def PollCond.holds (c : PollCond) (v : PollSample) : Bool :=
  match c with
  | .sb => flag v.sr1 sr1SB
  | .masterBusy => flag v.sr2 sr2MSL && flag v.sr2 sr2BUSY
  | .addr => flag v.sr1 sr1ADDR
  | .txe => flag v.sr1 sr1TXE
  | .btf => flag v.sr1 sr1BTF
  | .rxne => flag v.sr1 sr1RXNE
  | .stopSent => !flag v.cr1 cr1STOP

/-- The budget rule, when an iteration resolves nothing (rule R133). -/
def pollUnresolved (s : State) : State :=
  if s.cfg.pollBudget = 0#16 then s
  else if s.m.cnt - 1 = 0#16 then raise .timeout (s.withM { s.m with cnt := s.m.cnt - 1 })
  else s.withM { s.m with cnt := s.m.cnt - 1 }

/-- One iteration of a poll (rule R132): the armed check, the NACK check, the condition, the budget, in this order.
`act` is the success action. -/
def pollOnce (row : PollRow) (act : State → State) (seq : Seq) (tgt : MicroAddr) (s : State) : State :=
  let r := pollReads row s
  if s.m.armed && row.armedCheck.fails r.1 then raise .arbitrationLost r.2
  else if row.nackCheck && flag r.1.sr1 sr1AF then raise .nackReceived r.2
  else if row.cond.holds r.1 then applySeq seq tgt (act r.2)
  else pollUnresolved r.2

/-- The row of POLL_SB (rule R134). -/
def rowSb : PollRow := ⟨false, true, .never, .sb, false, .none⟩
/-- The row of POLL_MB (rule R134). -/
def rowMb : PollRow := ⟨false, false, .always, .masterBusy, false, .none⟩
/-- The row of POLL_ADDR (rule R134). -/
def rowAddr : PollRow := ⟨false, true, .never, .addr, true, .arlo⟩
/-- The row of POLL_TXE (rule R134). -/
def rowTxe : PollRow := ⟨false, true, .always, .txe, true, .arloMasterBusy⟩
/-- The row of POLL_BTF (rule R134). -/
def rowBtf : PollRow := ⟨false, true, .always, .btf, true, .arloMasterBusy⟩
/-- The row of POLL_RXNE (rule R134). -/
def rowRxne : PollRow := ⟨false, true, .whenArmed, .rxne, false, .arloMasterBusy⟩
/-- The row of POLL_STOP (rule R134). -/
def rowStop : PollRow := ⟨true, false, .never, .stopSent, false, .none⟩

/-- A poll without a success action. -/
def noAction (s : State) : State := s

/-- The success action of POLL_MB: `m.armed <- 1` (rule R139). -/
def arm (s : State) : State := s.withM { s.m with armed := true }

/-- The success action of POLL_BTF, and the count of RX_DATA: `m.idx <- m.idx + 1` (rules R22, R145, R149). -/
def countByte (s : State) : State := s.withM { s.m with idx := s.m.idx + 1 }

/-- POLL_SB (rule R138). DEDUCED: it completes on any SB = 1, the SB of a given-up ABORT included, and does not look at a
pending STOP (log entry 24). -/
def execPollSb (seq : Seq) (tgt : MicroAddr) (s : State) : Host.Outcome State Fault Refusal :=
  .next (pollOnce rowSb noAction seq tgt s)

/-- POLL_MB (rule R139). DEDUCED: Timeout can be raised here when an old STOP is sent after POLL_SB, whatever rule R202's
table says (log entry 25). -/
def execPollMb (seq : Seq) (tgt : MicroAddr) (s : State) : Host.Outcome State Fault Refusal :=
  .next (pollOnce rowMb arm seq tgt s)

/-- POLL_ADDR (rule R141). -/
def execPollAddr (seq : Seq) (tgt : MicroAddr) (s : State) : Host.Outcome State Fault Refusal :=
  .next (pollOnce rowAddr noAction seq tgt s)

/-- POLL_TXE (rule R143). DEDUCED: Timeout and ArbitrationLost can be raised here when an old STOP is sent after POLL_ADDR,
whatever the tables of rules R202 and R203 say (log entry 25). -/
def execPollTxe (seq : Seq) (tgt : MicroAddr) (s : State) : Host.Outcome State Fault Refusal :=
  .next (pollOnce rowTxe noAction seq tgt s)

/-- POLL_BTF (rule R145). -/
def execPollBtf (seq : Seq) (tgt : MicroAddr) (s : State) : Host.Outcome State Fault Refusal :=
  .next (pollOnce rowBtf countByte seq tgt s)

/-- POLL_STOP (rule R147). -/
def execPollStop (seq : Seq) (tgt : MicroAddr) (s : State) : Host.Outcome State Fault Refusal :=
  .next (pollOnce rowStop noAction seq tgt s)

/-- POLL_RXNE (rule R148). DEDUCED: ArbitrationLost can be raised at 28 when an old STOP is sent after POLL_ADDR, whatever
rule R203's table says (log entry 25). -/
def execPollRxne (seq : Seq) (tgt : MicroAddr) (s : State) : Host.Outcome State Fault Refusal :=
  .next (pollOnce rowRxne noAction seq tgt s)

end Sys2Proof.Machine
end

