-- ==== Sys2Proof/Machine/Transfer.lean ====
section
/-! DEFINITION. The transfer micro-operations that are no polls (rules R135 to R150). -/

namespace Sys2Proof.Machine

/-- DONE (rule R135). -/
def execDone (seq : Seq) (tgt : MicroAddr) (s : State) : Host.Outcome State Fault Refusal :=
  .next (applySeq seq tgt (s.withM { s.m with result := .ok, errupc := 0#6, armed := false, busy := false }))

/-- ACK_ON (rule R136): `BCSet(CR1.ACK, 1)`. -/
def execAckOn (seq : Seq) (tgt : MicroAddr) (s : State) : Host.Outcome State Fault Refusal :=
  finishMicro seq tgt s (bcSet 0x00 (fun v => setFlag v cr1ACK true) s)

/-- GEN_START (rule R137): `BCSet(CR1.START, 1)`. -/
def execGenStart (seq : Seq) (tgt : MicroAddr) (s : State) : Host.Outcome State Fault Refusal :=
  finishMicro seq tgt s (bcSet 0x00 (fun v => setFlag v cr1START true) s)

/-- TX_ADDR (rule R140): the address byte to DR. DEDUCED: if an old STOP was sent after POLL_SB, the byte is stored only
(rule R39), whatever rule R140 says of the path (log entry 25). -/
def execTxAddr (seq : Seq) (tgt : MicroAddr) (s : State) : Host.Outcome State Fault Refusal :=
  finishMicro seq tgt s (bcWrite 0x10 (zext16 (addressByte s.m)) s)

/-- CLR_ADDR (rule R142): a read of SR2 whose value is discarded. -/
def execClrAddr (seq : Seq) (tgt : MicroAddr) (s : State) : Host.Outcome State Fault Refusal :=
  finishMicro seq tgt s ((bcRead 0x18 s).bind fun r => .ok r.2)

/-- The body of TX_DATA (rule R144): a byte that was never written faults; otherwise it goes to DR. -/
def sendByte (s : State) : Micro State :=
  match s.buf.read s.m.idx.toNat with
  | none => .fault .unwrittenBuf
  | some v => bcWrite 0x10 (zext16 v) s

/-- TX_DATA (rule R144). -/
def execTxData (seq : Seq) (tgt : MicroAddr) (s : State) : Host.Outcome State Fault Refusal :=
  finishMicro seq tgt s (sendByte s)

/-- `m.armed <- 0` (rules R24, R146, R150). -/
def disarm (s : State) : State := s.withM { s.m with armed := false }

/-- GEN_STOP (rule R146): `BCSet(CR1.STOP, 1)`, and the armed window ends. -/
def execGenStop (seq : Seq) (tgt : MicroAddr) (s : State) : Host.Outcome State Fault Refusal :=
  finishMicro seq tgt s ((bcSet 0x00 (fun v => setFlag v cr1STOP true) s).bind fun t => .ok (disarm t))

/-- Store a received byte in `BUF[m.idx]`, mark it written and count it (rule R149). BUF has no byte 256. -/
def storeByte (v : Byte) (s : State) : Micro State :=
  if s.m.idx.toNat < bufDepth then .ok (countByte (s.withBuf (s.buf.write s.m.idx.toNat v)))
  else .stop .bufIndexOutside

/-- RX_DATA (rule R149). -/
def execRxData (seq : Seq) (tgt : MicroAddr) (s : State) : Host.Outcome State Fault Refusal :=
  finishMicro seq tgt s ((bcRead 0x10 s).bind fun r => storeByte (lowByte r.1) r.2)

/-- NACK_STOP (rule R150): ACK cleared and STOP set in one read-modify-write, and the armed window ends. -/
def execNackStop (seq : Seq) (tgt : MicroAddr) (s : State) : Host.Outcome State Fault Refusal :=
  finishMicro seq tgt s
    ((bcSet 0x00 (fun v => setFlag (setFlag v cr1ACK false) cr1STOP true) s).bind fun t => .ok (disarm t))

end Sys2Proof.Machine
end

