-- ==== Sys2Proof/Machine/Dispatch.lean ====
section
/-! DEFINITION. The meaning of every instruction, one arm per constructor of Instr. -/

namespace Sys2Proof.Machine

def exec (i : Instr) (s : State) : Host.Outcome State Fault Refusal :=
  match i with
  | .init mode duty clk => Sys2Proof.Machine.execInit mode duty clk s
  | .write addr lenm1 => Sys2Proof.Machine.execWrite addr lenm1 s
  | .read addr lenm1 => Sys2Proof.Machine.execRead addr lenm1 s
  | .badCommand word => Sys2Proof.Machine.execBadCommand word s
  | .done seq tgt => Sys2Proof.Machine.execDone seq tgt s
  | .tcuEval seq tgt => Sys2Proof.Machine.execTcuEval seq tgt s
  | .peOff seq tgt => Sys2Proof.Machine.execPeOff seq tgt s
  | .selI2c seq tgt => Sys2Proof.Machine.execSelI2c seq tgt s
  | .setOpts seq tgt => Sys2Proof.Machine.execSetOpts seq tgt s
  | .wrFreq seq tgt => Sys2Proof.Machine.execWrFreq seq tgt s
  | .wrCcr seq tgt => Sys2Proof.Machine.execWrCcr seq tgt s
  | .wrTrise seq tgt => Sys2Proof.Machine.execWrTrise seq tgt s
  | .peOn seq tgt => Sys2Proof.Machine.execPeOn seq tgt s
  | .ackOn seq tgt => Sys2Proof.Machine.execAckOn seq tgt s
  | .genStart seq tgt => Sys2Proof.Machine.execGenStart seq tgt s
  | .pollSb seq tgt => Sys2Proof.Machine.execPollSb seq tgt s
  | .pollMb seq tgt => Sys2Proof.Machine.execPollMb seq tgt s
  | .txAddr seq tgt => Sys2Proof.Machine.execTxAddr seq tgt s
  | .pollAddr seq tgt => Sys2Proof.Machine.execPollAddr seq tgt s
  | .clrAddr seq tgt => Sys2Proof.Machine.execClrAddr seq tgt s
  | .pollTxe seq tgt => Sys2Proof.Machine.execPollTxe seq tgt s
  | .txData seq tgt => Sys2Proof.Machine.execTxData seq tgt s
  | .pollBtf seq tgt => Sys2Proof.Machine.execPollBtf seq tgt s
  | .genStop seq tgt => Sys2Proof.Machine.execGenStop seq tgt s
  | .pollStop seq tgt => Sys2Proof.Machine.execPollStop seq tgt s
  | .pollRxne seq tgt => Sys2Proof.Machine.execPollRxne seq tgt s
  | .rxData seq tgt => Sys2Proof.Machine.execRxData seq tgt s
  | .nackStop seq tgt => Sys2Proof.Machine.execNackStop seq tgt s
  | .abort seq tgt => Sys2Proof.Machine.execAbort seq tgt s

end Sys2Proof.Machine
end

