-- ==== Sys2Proof/Machine/HostPort.lean ====
section
/-! DEFINITION. The host interface (rules R50 to R56, R60, R61), the caller's operations (rules R91, R92) and the
host's turns. -/

namespace Sys2Proof.Machine

/-! ### The HI map (rule R51) -/

/-- What an HI offset names. -/
inductive HiTarget where
  | cmd
  | status
  | cfgout
  | buf (i : Nat)
  | unmapped
deriving DecidableEq, Repr

/-- The target of an HI byte offset (rule R51). -/
def hiTarget (off : Nat) : HiTarget :=
  if off < 0x004 then .cmd
  else if off < 0x008 then .status
  else if off < 0x00C then .cfgout
  else if off < 0x100 then .unmapped
  else if off < 0x200 then .buf (off - 0x100)
  else .unmapped

/-- Whether the width and alignment suit the target: words at multiples of 4, BUF by bytes (rules R56, R60). -/
def hiFits (t : HiTarget) (w : Width) (off : Nat) : Bool :=
  match t with
  | .cmd | .status | .cfgout => decide (w = .word) && decide (off % 4 = 0)
  | .buf _ => decide (w = .byte)
  | .unmapped => false

/-! ### Host accesses -/

/-- A completed read returns a value to the host and changes nothing else (rule R55). -/
def returnToHost (v : HostValue) (s : State) : State := { s with hostData := some v }

/-- A host read of a BUF byte (rules R54, R56): refused while a command runs; a byte never written faults and returns
no value. -/
def hostReadBuf (i : Nat) (s : State) : State :=
  if s.m.busy then s.markRefusal
  else
    match s.buf.read i with
    | some v => returnToHost (.byte v) s
    | none => s.recordFault .unwrittenBuf

/-- A host write of a BUF byte (rules R53, R56). -/
def hostWriteBuf (i : Nat) (v : Byte) (s : State) : State :=
  if s.m.busy then s.markRefusal else s.withBuf (s.buf.write i v)

/-- A host read (rules R51, R54 to R56). -/
def hostRead (w : Width) (off : Nat) (s : State) : State :=
  if hiFits (hiTarget off) w off then
    match hiTarget off with
    | .cmd => returnToHost (.word 0x00000000#32) s
    | .status => returnToHost (.word (statusImage s.m)) s
    | .cfgout => returnToHost (.word (cfgoutImage s.m)) s
    | .buf i => hostReadBuf i s
    | .unmapped => s.markRefusal
  else s.markRefusal

/-- A host write (rules R51, R53, R56, R83): a CMD write runs the descriptor's meaning. -/
def hostWrite (w : Width) (off : Nat) (v : Word) (s : State) : Host.Outcome State Fault Refusal :=
  if hiFits (hiTarget off) w off then
    match hiTarget off with
    | .cmd => exec (decodeCmd v) s
    | .buf i => .next (hostWriteBuf i (v.setWidth 8) s)
    | .status => .next s.markRefusal
    | .cfgout => .next s.markRefusal
    | .unmapped => .next s.markRefusal
  else .next s.markRefusal

/-- One host access (rule R61). -/
def hostAccess (a : HostAccess) (s : State) : Host.Outcome State Fault Refusal :=
  match a with
  | .read w off => .next (hostRead w off s)
  | .write w off v => hostWrite w off v s

/-! ### What a caller does after its `wait` (rule R91) -/

/-- BUSY of a STATUS word (rule R27). -/
def statusBusy (w : Word) : Bool := w.getLsbD 0

/-- RESULT of a STATUS word (rule R27). -/
def statusResult (w : Word) : BitVec 4 := w.extractLsb' 4 4

/-- What a call returns for the RESULT code `res` of its final STATUS read. Rule R91 lists no return for the other codes
(log entry 16). -/
def callReturn (c : Call) (res : BitVec 4) : Option CallResult :=
  match c with
  | .init => if res = 1#4 then some .ok else if res = 2#4 then some .configError else none
  | .write | .read _ =>
    if res = 1#4 then some .ok else if res = 3#4 then some .timeout else if res = 4#4 then some .nackReceived
    else if res = 5#4 then some .arbitrationLost else none

/-- The steps by which a `read` of `n` bytes fetches BUF[0..n-1]. -/
def fetchBytes (n : Nat) : List HostStep := (List.range n).map .fetch

/-- What a call still does after its `wait`: a `read` with `res` = 1 fetches its bytes. -/
def callFetch (c : Call) (res : BitVec 4) : List HostStep :=
  match c with
  | .init | .write => []
  | .read n => if res = 1#4 then fetchBytes n else []

/-- The end of a `wait` whose final STATUS word is `w`: the call it belongs to, if any, gets its result, and its fetch
comes before the rest of the program. -/
def endWait (c : Option Call) (w : Word) (s : State) : State :=
  match c with
  | none => s
  | some c =>
    { s with
      callResult := callReturn c (statusResult w)
      program := callFetch c (statusResult w) ++ s.program }

/-- One STATUS read of a `wait` that `rest` follows: the `wait` is over with the read that finds BUSY = 0. -/
def waitOnce (c : Option Call) (rest : List HostStep) (s : State) : State :=
  let w := statusImage s.m
  let t := hostRead .word 0x004 s
  if statusBusy w then t else endWait c w { t with program := rest }

/-- `buffer[i] <- BUF[i]`: a host read of the byte, which the caller keeps when the read returns it. -/
def fetchByte (i : Nat) (s : State) : State :=
  let t := hostRead .byte (0x100 + i) s
  if s.m.busy = false ∧ i < bufDepth then
    match s.buf.read i with
    | some v => { t with callerBuffer := t.callerBuffer.write i v }
    | none => t
  else t

/-- The host's turn: the next step of its program makes one access (rules R61, R91). A host that has made its last access
takes no step. -/
def hostTurn (s : State) : Host.Outcome State Fault Refusal :=
  match s.program with
  | [] => .next s
  | .access a :: rest => hostAccess a { s with program := rest }
  | .wait c :: rest => .next (waitOnce c rest s)
  | .fetch i :: rest => .next (fetchByte i { s with program := rest })

/-! ### The caller's operations (rules R91, R92) -/

/-- A host write of a descriptor to CMD. -/
def issue (w : Word) : HostStep := .access (.write .word 0x000 w)

/-- The descriptor of a well-formed command (rules R81, R82). -/
def descriptor (i : Instr) : Word :=
  match encode i with
  | .cmd w => w
  | .uop w => w.setWidth 32

/-- `init(clk, mode, duty)` as host steps; the descriptor carries `clk[27:0]` (rule R91). -/
def initCall (clk : Nat) (mode : BusMode) (duty : Duty) : List HostStep :=
  [issue (descriptor (.init mode duty (BitVec.ofNat 28 clk))), .wait (some .init)]

/-- The BUF writes that load a payload from index `i` on (rule R91). -/
def loadPayload (i : Nat) (payload : List Byte) : List HostStep :=
  match payload with
  | [] => []
  | v :: rest => .access (.write .byte (0x100 + i) (v.setWidth 32)) :: loadPayload (i + 1) rest

/-- `write(addr, payload)` as host steps (rule R91); an address or a length out of range issues nothing (rule R92). -/
def writeCall (addr : Nat) (payload : List Byte) : Option (List HostStep) :=
  if addr < 128 ∧ 1 ≤ payload.length ∧ payload.length ≤ bufDepth then
    some (loadPayload 0 payload ++
      [issue (descriptor (.write (BitVec.ofNat 7 addr) (BitVec.ofNat 8 (payload.length - 1)))), .wait (some .write)])
  else none

/-- `read(addr, buffer, n)` as host steps (rule R91); an address or a length out of range issues nothing (rule R92). -/
def readCall (addr n : Nat) : Option (List HostStep) :=
  if addr < 128 ∧ 1 ≤ n ∧ n ≤ bufDepth then
    some [issue (descriptor (.read (BitVec.ofNat 7 addr) (BitVec.ofNat 8 (n - 1)))), .wait (some (.read n))]
  else none

end Sys2Proof.Machine
end

