-- ==== Sys2Proof/Machine/Agents.lean ====
section
/-! DEFINITION. The interleaving of the agents (rules R3, R65): the turn that comes next, the MTE's fetch, and one step
of the whole block. -/

namespace Sys2Proof.Machine

/-! ### The MTE (rules R19, R20, R87) -/

/-- The ROM word at `m.upc`. -/
def fetchWord (s : State) : Option Half := s.rom[s.m.upc.toNat]?

/-- The MTE's turn: one micro-operation while a command runs, none while it is idle (rule R19). A reserved word is
refused (rule R87). -/
def mteTurn (s : State) : Host.Outcome State Fault Refusal :=
  if s.m.busy then
    match fetchWord s with
    | none => .fault .microAddressOutsideRom
    | some w =>
      match decodeUop w with
      | .error _ => .next s.markRefusal
      | .ok i => exec i s
  else .next s

/-! ### Turns -/

/-- The turn that comes next, and the state once it is taken off: the head of the schedule, or a free value when the
schedule names none (log entry 3). -/
def nextTurn (s : State) : Turn × State :=
  match s.schedule with
  | t :: rest => (t, { s with schedule := rest })
  | [] => (Config.freeTurn s.turnsDrawn, { s with turnsDrawn := s.turnsDrawn + 1 })

/-- One turn. A turn of the bus controller or the environment whose guard does not hold changes nothing (rule R180). -/
def runTurn (t : Turn) (s : State) : Host.Outcome State Fault Refusal :=
  match t with
  | .host => hostTurn s
  | .mte => mteTurn s
  | .bcStart => .next ((busStep .bcStart s).getD s)
  | .bcAddr ans => .next ((busStep (.bcAddr ans) s).getD s)
  | .bcAddrArb => .next ((busStep .bcAddrArb s).getD s)
  | .bcTx draw => .next ((busStep (.bcTx draw) s).getD s)
  | .bcRx d => .next ((busStep (.bcRx d) s).getD s)
  | .bcStop => .next ((busStep .bcStop s).getD s)
  | .bcStopIdle => .next ((busStep .bcStopIdle s).getD s)
  | .envClaim => .next ((busStep .envClaim s).getD s)
  | .envRelease => .next ((busStep .envRelease s).getD s)

/-- The sticky fault that makes a state quiescent, if one is recorded (rule R210). -/
def recordedFault (s : State) : Option ModelFault :=
  if s.faults.unwrittenBuf then some .unwrittenBuf
  else if s.faults.abortWithoutStop then some .abortWithoutStop
  else none

/-- One step of the block: no agent steps in a faulted state (rule R210); otherwise the next turn is taken. -/
def stepBody (s : State) : Host.Outcome State Fault Refusal :=
  match recordedFault s with
  | some f => .fault (.recorded f)
  | none => runTurn (nextTurn s).1 (nextTurn s).2

/-! ### Placing an instruction where the next step fetches it (log entry 4) -/

/-- No fault is recorded, so that a step is taken. -/
def clearFaults (s : State) : State := { s with faults := { unwrittenBuf := false, abortWithoutStop := false } }

/-- The next turn is the host's, and its next access writes `w` to CMD. -/
def withCommand (w : Word) (s : State) : State :=
  { clearFaults s with program := issue w :: s.program, schedule := .host :: s.schedule }

/-- The next turn is the MTE's, a command runs, and the ROM word at `m.upc` is `w`; a `m.upc` outside the ROM is moved to 0. -/
def withMicroWord (w : Half) (s : State) : State :=
  let upc := if s.m.upc.toNat < s.rom.length then s.m.upc else 0#6
  { clearFaults s with
    m := { s.m with busy := true, upc := upc }
    rom := if s.rom = [] then [w] else s.rom.set upc.toNat w
    schedule := .mte :: s.schedule }

/-- `withFetchWord` of Step.lean: a 16-bit word is a micro-instruction, any other width a command descriptor. -/
def placeWord (s : State) (nbits w : Nat) : State :=
  if nbits = 16 then withMicroWord (BitVec.ofNat 16 w) s
  else withCommand (BitVec.ofNat 32 (w % 2 ^ nbits)) s

end Sys2Proof.Machine
end

