-- ==== Sys2Proof/Machine/Step.lean ====
section
/-! DEFINITION. One step of the block, and the state in which the next step runs a given word. -/

namespace Sys2Proof.Machine

/-- One step: the next agent's atomic step (rules R3, R61, R65, R210). -/
def step (s : State) : Host.Outcome State Fault Refusal := stepBody s

/-- The state in which the very next step runs the instruction whose word is `w` (log entry 4). -/
def State.withFetchWord (s : State) (nbits w : Nat) : State := placeWord s nbits w

end Sys2Proof.Machine
end

