-- ==== Sys2Proof/Safety.lean ====
section
/-! DEFINITION. What counts as a safe run, in the terms the claims use: the end of a run (rule R244), the invariants of
the bus controller (rule R181) and of the MTE (rules R20 to R24), the runs of one command, and the step bound (rule
R241). -/

namespace Sys2Proof.Safety

open Sys2Proof.Machine

/-! ### Runs (rules R210, R244) -/

/-- A sticky fault is recorded (rule R210). -/
def Faulted (s : State) : Prop := s.faults.unwrittenBuf = true ∨ s.faults.abortWithoutStop = true

/-- The end of a run (rule R244): the host has made its last access, no command runs, no step of rules R170 to R176 is
enabled, and no fault is recorded. The environment's own claims and releases do not keep a run open. -/
def RunEnded (s : State) : Prop :=
  s.program = [] ∧ s.m.busy = false ∧ bcStepEnabled s = false ∧ ¬ Faulted s

/-- A launch (rule R244): the reset state with the premise PLATFORM_READY, any values of the parameters, a host
program and a schedule. -/
def launch (c : Config) (program : List HostStep) (schedule : List Turn) : State :=
  { State.reset with cfg := { c with platformReady := true }, program := program, schedule := schedule }

/-- `s` is reached in a run from `s0` that had not ended before it (rule R244). -/
inductive RunTo (s0 : State) : State → Prop where
  | here : RunTo s0 s0
  | onward {s t : State} (h : RunTo s0 s) (hn : ¬ RunEnded s) (hs : step s = .next t) : RunTo s0 t

/-- `s` is where the run from `s0` ends: its FIRST state that meets the conditions of rule R244. -/
def EndOfRun (s0 s : State) : Prop := RunTo s0 s ∧ RunEnded s

/-- The MTE step by which a command ends: it sets `m.busy` to 0 (rule R244). -/
def CommandEnds (s t : State) : Prop :=
  s.m.busy = true ∧ (nextTurn s).1 = .mte ∧ step s = .next t ∧ t.m.busy = false

/-- The runs that rule R240's fairness speaks of: endless sequences of steps. -/
def IsRun (r : Nat → State) : Prop := ∀ n, step (r n) = .next (r (n + 1))

/-- The MTE is weakly fair in a run (rule R240): while a command runs its turn comes again. No other agent is. The
model imposes it on no run; a claim that needs it assumes it (log entry 18). -/
def MteFair (r : Nat → State) : Prop :=
  ∀ n, (r n).m.busy = true → ∃ k, n ≤ k ∧ (nextTurn (r k)).1 = .mte

/-! ### What a run shows (rule R13) -/

/-- The observation of a run: the trace, the host-visible registers, BUF and the bus-controller register file. -/
structure Observation where
  trace : List Event
  status : Word
  cfgout : Word
  buf : Memory
  registers : List Half
deriving DecidableEq, Repr

/-- What is observed of a state; the registers come in the order of rule R30. -/
def observe (s : State) : Observation where
  trace := s.trace
  status := statusImage s.m
  cfgout := cfgoutImage s.m
  buf := s.buf
  registers := [s.b.cr1, s.b.cr2, s.b.oar1, s.b.oar2, s.b.dr, s.b.sr1, s.b.sr2, s.b.ccr, s.b.trise, s.b.fltr]

/-- The observation of a run that ends in `s`. A run whose end has the refusal mark set is rejected: it has none (rule
R244). -/
def observeEnd (s : State) : Option Observation := if s.refusalMark then none else some (observe s)

/-- The outcome of a command that ends with a step to `t` (rule R244): STATUS, CFGOUT, BUF and the trace at that step. -/
def commandOutcome (t : State) : Word × Word × Memory × List Event :=
  (statusImage t.m, cfgoutImage t.m, t.buf, t.trace)

/-! ### The bus controller (rule R181) -/

/-- The invariants of rule R181, and that SB is set exactly while the controller waits for the address. -/
def BusInv (s : State) : Prop :=
  flag s.b.sr2 sr2MSL = s.b.bmode.isMaster ∧
  (s.b.otherBusy = true → s.b.bmode.isMaster = false ∧ flag s.b.sr2 sr2BUSY = true) ∧
  (flag s.b.sr2 sr2BUSY = false → s.b.bmode = .idle ∧ s.b.otherBusy = false) ∧
  (s.b.txPending = true → s.b.bmode = .mTx) ∧
  flag s.b.sr1 sr1SB = decide (s.b.bmode = .mSb)

/-- The bits that no step of the block ever sets: reserved bits (rule R31), the flags of 93_implementation_defined.md
item 10, the CR1 fields "never written by the MTE" (rule R32), the interrupt and DMA enables of CR2 (rule R213), and
OAR1 and OAR2 (rule R34). -/
def QuietBits (s : State) : Prop :=
  s.b.cr1 &&& 0xF87C#16 = 0#16 ∧ s.b.cr2 &&& 0xFF00#16 = 0#16 ∧ s.b.oar1 = 0#16 ∧ s.b.oar2 = 0#16 ∧
  s.b.dr &&& 0xFF00#16 = 0#16 ∧ s.b.sr1 &&& 0xF938#16 = 0#16 ∧ s.b.sr2 &&& 0xFFF8#16 = 0#16 ∧
  s.b.ccr &&& 0x3000#16 = 0#16 ∧ s.b.trise &&& 0xFF00#16 = 0#16 ∧ s.b.fltr &&& 0xFFE0#16 = 0#16

/-- What a CR1 write with PE = 0 leaves, by the bits of the registers: `cr1` in CR1, SR1 cleared, MSL and TRA cleared,
BUSY as the environment holds the bus, and the hidden state at rest (rule R40). -/
def disabledBc (b : Bc) (cr1 : Half) : Bc :=
  { b with
    cr1 := cr1
    sr1 := 0x0000#16
    sr2 := (b.sr2 &&& 0xFFF8#16) ||| (if b.otherBusy then 0x0002#16 else 0x0000#16)
    bmode := .idle
    txPending := false
    sr1SeenSB := false
    sr1SeenADDR := false }

/-- What `dropMaster` leaves, by the bits of the registers (43_bus_controller.md, shorthand). -/
def droppedBc (b : Bc) : Bc :=
  { b with
    sr1 := b.sr1 &&& 0xFF78#16
    sr2 := (b.sr2 &&& 0xFFF8#16) ||| (if b.otherBusy then 0x0002#16 else 0x0000#16)
    bmode := .idle
    txPending := false
    sr1SeenSB := false
    sr1SeenADDR := false }

/-- What a write of the byte `v` to DR does to the bus controller (rule R39): the address byte, a data byte, or a byte
that is stored only. -/
def DrWrite (v : Byte) (b c : Bc) : Prop :=
  (flag b.sr1 sr1SB = true ∧ b.sr1SeenSB = true →
    c = { b with dr := v.setWidth 16, sr1 := b.sr1 &&& 0xFFFE#16, sr1SeenSB := false, bmode := .mAddr }) ∧
  (¬ (flag b.sr1 sr1SB = true ∧ b.sr1SeenSB = true) → b.bmode = .mTx ∧ flag b.sr1 sr1TXE = true →
    c = { b with dr := v.setWidth 16, sr1 := b.sr1 &&& 0xFF7B#16, txPending := true }) ∧
  (¬ (flag b.sr1 sr1SB = true ∧ b.sr1SeenSB = true) → ¬ (b.bmode = .mTx ∧ flag b.sr1 sr1TXE = true) →
    c = { b with dr := v.setWidth 16 })

/-- The status flags and the hidden state are the same: SR1, SR2, `b.bmode`, `b.txPending` and the two seen marks. -/
def SameFlags (b c : Bc) : Prop :=
  c.sr1 = b.sr1 ∧ c.sr2 = b.sr2 ∧ c.bmode = b.bmode ∧ c.txPending = b.txPending ∧ c.sr1SeenSB = b.sr1SeenSB ∧
    c.sr1SeenADDR = b.sr1SeenADDR

/-- The controller was not master and a CR1 write with PE = 0 has disabled it (rule R40); `c`'s own CR1 and FLTR, which a
micro-operation may also write, stand. -/
def Disabled (b c : Bc) : Prop :=
  b.bmode.isMaster = false ∧ flag c.cr1 cr1PE = false ∧ c = { disabledBc b c.cr1 with fltr := c.fltr }

/-- A seen ADDR was cleared by a read of SR2, which in transmit sets TXE (rule R38); nothing else but the SB mark, which
a read of SR1 before it may set. -/
def AddrCleared (b c : Bc) : Prop :=
  flag b.sr1 sr1ADDR = true ∧
    c = { b with
      sr1 := (b.sr1 &&& 0xFFFD#16) ||| (if b.bmode = .mTx then 0x0080#16 else 0x0000#16)
      sr1SeenSB := c.sr1SeenSB
      sr1SeenADDR := false }

/-- The flags after a poll's reads of SR1 and SR2: a read of SR1 marks a set SB and a set ADDR as seen, and a read of SR2
may clear ADDR (rule R38). -/
def PollFlags (b c : Bc) : Prop :=
  (c.sr1SeenSB = b.sr1SeenSB ∨ c.sr1SeenSB = true ∧ flag b.sr1 sr1SB = true) ∧
    (AddrCleared b c ∨
      c = { b with sr1SeenSB := c.sr1SeenSB, sr1SeenADDR := c.sr1SeenADDR } ∧
        (c.sr1SeenADDR = b.sr1SeenADDR ∨ c.sr1SeenADDR = true ∧ flag b.sr1 sr1ADDR = true))

/-- What each instruction may do to the status flags and the hidden state (rule R44): only by the side effects of DR and
SR2 reads, SR1 reads (the seen marks), DR writes, ABORT's write of SR1, and the effects of PE = 0. -/
def FlagFrame (i : Instr) (b c : Bc) : Prop :=
  match i with
  | .init _ _ _ | .write _ _ | .read _ _ | .badCommand _ => SameFlags b c
  | .done _ _ | .tcuEval _ _ | .wrFreq _ _ | .wrCcr _ _ | .wrTrise _ _ | .pollStop _ _ => SameFlags b c
  | .peOff _ _ | .selI2c _ _ | .setOpts _ _ | .peOn _ _ | .ackOn _ _ => SameFlags b c ∨ Disabled b c
  | .genStart _ _ | .genStop _ _ | .nackStop _ _ => SameFlags b c ∨ Disabled b c
  | .abort _ _ =>
    SameFlags b c ∨ Disabled b c ∨ c = { b with cr1 := c.cr1, sr1 := b.sr1 &&& 0xF9FF#16 }
  | .pollSb _ _ | .pollMb _ _ | .pollAddr _ _ | .pollTxe _ _ | .pollBtf _ _ | .pollRxne _ _ => PollFlags b c
  | .clrAddr _ _ => SameFlags b c ∨ AddrCleared b c
  | .txAddr _ _ | .txData _ _ => c = b ∨ ∃ v, DrWrite v b c
  | .rxData _ _ => c = { b with sr1 := b.sr1 &&& 0xFFBB#16 }

/-- A poll: the seven micro-operations of rule R134. -/
def isPoll : Instr → Bool
  | .pollSb _ _ | .pollMb _ _ | .pollAddr _ _ | .pollTxe _ _ | .pollBtf _ _ | .pollStop _ _ | .pollRxne _ _ => true
  | .init _ _ _ | .write _ _ | .read _ _ | .badCommand _ => false
  | .done _ _ | .tcuEval _ _ | .peOff _ _ | .selI2c _ _ | .setOpts _ _ => false
  | .wrFreq _ _ | .wrCcr _ _ | .wrTrise _ _ | .peOn _ _ | .ackOn _ _ => false
  | .genStart _ _ | .txAddr _ _ | .clrAddr _ _ | .txData _ _ | .genStop _ _ => false
  | .rxData _ _ | .nackStop _ _ | .abort _ _ => false

/-- A micro-instruction, as against a command descriptor (rule R89). -/
def isMicro : Instr → Bool
  | .init _ _ _ | .write _ _ | .read _ _ | .badCommand _ => false
  | .done _ _ | .tcuEval _ _ | .peOff _ _ | .selI2c _ _ | .setOpts _ _ => true
  | .wrFreq _ _ | .wrCcr _ _ | .wrTrise _ _ | .peOn _ _ | .ackOn _ _ => true
  | .genStart _ _ | .pollSb _ _ | .pollMb _ _ | .txAddr _ _ | .pollAddr _ _ => true
  | .clrAddr _ _ | .pollTxe _ _ | .txData _ _ | .pollBtf _ _ | .genStop _ _ => true
  | .pollStop _ _ | .pollRxne _ _ | .rxData _ _ | .nackStop _ _ | .abort _ _ => true

/-! ### The MTE (rules R18 to R24) -/

/-- Where a command may stand, at micro-address `u` with `i` of `n` bytes completed: its operands fit the part of the
ROM that it is in, and `i` fits the place (rule R22). -/
def PlaceAt (op : CmdOp) (dir : Dir) (u i n : Nat) : Prop :=
  (u ≤ 8 ∧ op = .init) ∨
  (9 ≤ u ∧ u ≤ 20 ∧ op = .write ∧ dir = .write ∧
    ((u ≤ 14 ∧ i = 0) ∨ (15 ≤ u ∧ u ≤ 17 ∧ i < n) ∨ (18 ≤ u ∧ i = n))) ∨
  (21 ≤ u ∧ u ≤ 34 ∧ op = .read ∧ dir = .read ∧
    ((u ≤ 27 ∧ i = 0) ∨ (28 ≤ u ∧ u ≤ 29 ∧ i + 1 < n) ∨ (30 ≤ u ∧ u ≤ 32 ∧ i + 1 = n) ∨ (33 ≤ u ∧ i = n))) ∨
  (u = 35 ∧ i ≤ n ∧ ((op = .write ∧ dir = .write) ∨ (op = .read ∧ dir = .read)))

/-- The running command stands at a place of the ROM that fits it (rules R20, R22). -/
def placeOk (m : Mte) : Prop := PlaceAt m.op m.dir m.upc.toNat m.idx.toNat (transferLength m)

/-- The MTE's invariant: the ROM is the listing of rule R86; a running command stands at a place of it; the poll count
is within the budget at a poll (rule R23); an error is carried exactly in ABORT, whose phase is 0 elsewhere (rule R204);
`m.armed` is 1 only from a successful POLL_MB to the STOP (rule R24). -/
def MteInv (s : State) : Prop :=
  s.rom = romWords ∧ s.m.upc.toNat ≤ 35 ∧
  (s.m.busy = true → placeOk s.m) ∧
  (s.m.busy = true → s.cfg.pollBudget ≠ 0#16 → entersPoll romWords s.m.upc = true →
    1 ≤ s.m.cnt.toNat ∧ s.m.cnt.toNat ≤ s.cfg.pollBudget.toNat) ∧
  (s.m.busy = true → (s.m.err ≠ .none ↔ s.m.upc = abortEntry)) ∧
  (s.m.busy = false → s.m.err = .none ∧ s.m.armed = false ∧ s.m.aph = false) ∧
  (s.m.aph = true → s.m.upc = abortEntry ∧ s.m.armed = false) ∧
  (s.m.armed = true → (12 ≤ s.m.upc.toNat ∧ s.m.upc.toNat ≤ 18) ∨ (25 ≤ s.m.upc.toNat ∧ s.m.upc.toNat ≤ 30) ∨
    s.m.upc = abortEntry)

/-- While INIT writes the timing fields and options the controller is disabled (rule R125). -/
def InitDisabled (s : State) : Prop :=
  s.m.busy = true → 2 ≤ s.m.upc.toNat → s.m.upc.toNat ≤ 7 → flag s.b.cr1 cr1PE = false

/-- While ABORT polls stop-sent, no START is pending, and stop-sent means the block is not master (rule R205). -/
def AbortReleases (s : State) : Prop :=
  s.m.aph = true →
    flag s.b.cr1 cr1START = false ∧ (flag s.b.cr1 cr1STOP = false → s.b.bmode.isMaster = false)

/-- While a WRITE or READ runs that was accepted with no old SB and no old START, its START is pending from GEN_START to
POLL_SB only, POLL_SB completes on its own SB, and stop-sent, once polled after its STOP was requested, means that the
block is not master: what rule R237 needs of a command that ends with NOSTOP = 0 (log entry 24). -/
def TransferReleases (s : State) : Prop :=
  s.m.busy = true → 9 ≤ s.m.upc.toNat → s.m.upc.toNat ≤ 34 →
    (s.m.upc.toNat ∈ [9, 21, 22] → flag s.b.cr1 cr1START = false ∧ s.b.bmode ≠ .mSb) ∧
    (s.m.upc.toNat ∈ [10, 23] → s.b.bmode = .mSb → flag s.b.cr1 cr1START = false) ∧
    (s.m.upc.toNat ∉ [9, 10, 21, 22, 23] → flag s.b.cr1 cr1START = false) ∧
    (s.m.upc.toNat ∈ [19, 31, 32, 33] → flag s.b.cr1 cr1STOP = false → s.b.bmode.isMaster = false) ∧
    (s.m.upc.toNat ∈ [20, 34] → s.b.bmode.isMaster = false)

/-- What rule R237 needs from one command to the next: no START is requested between commands or in INIT, and what
`TransferReleases` and `AbortReleases` say of a WRITE or READ that runs. Every step keeps it but the acceptance of a WRITE
or READ in M_SB, where the spec's sentences disagree (log entry 24). -/
def ReleaseInv (s : State) : Prop :=
  (s.m.busy = false ∨ s.m.upc.toNat ≤ 8 → flag s.b.cr1 cr1START = false) ∧ TransferReleases s ∧ AbortReleases s

/-! ### One command (rules R152, R153, R241) -/

/-- `s` is reached from `s0` by steps of any agents, a command running all the way; `k` counts the MTE's turns. -/
inductive BusyRun (s0 : State) : Nat → State → Prop where
  | here (h : s0.m.busy = true) : BusyRun s0 0 s0
  | onward {k : Nat} {s t : State} (h : BusyRun s0 k s) (hs : step s = .next t) (hb : t.m.busy = true) :
      BusyRun s0 (if (nextTurn s).1 = .mte then k + 1 else k) t

/-- A WRITE or READ has just been accepted, and nothing of an earlier transaction is left on the bus side: the block is
not master and neither START nor STOP is requested. -/
def FreshTransfer (s : State) : Prop :=
  MteInv s ∧ BusInv s ∧ s.b.bmode.isMaster = false ∧
  flag s.b.cr1 cr1START = false ∧ flag s.b.cr1 cr1STOP = false

/-- A WRITE or READ has just been accepted, and no START event and no START request of an earlier transaction is left: an
old STOP may still be pending, as rule R237 allows (log entry 17). -/
def AcceptedTransfer (s : State) : Prop :=
  MteInv s ∧ BusInv s ∧ flag s.b.cr1 cr1START = false ∧ s.b.bmode ≠ .mSb

/-- The bus events of a complete WRITE of `bytes` (rule R153). -/
def writeTrace (addr : BitVec 7) (bytes : List Byte) : List Event :=
  [.start, .addr (addr ++ 0#1), .ack] ++ (bytes.map fun v => [Event.data v, .ack]).flatten ++ [.stop]

/-- The data events of a READ: every byte but the last is ACKed, the last is NACKed (rule R152). -/
def readData (bytes : List Byte) : List Event :=
  match bytes with
  | [] => []
  | [v] => [.data v, .nack]
  | v :: w :: rest => .data v :: .ack :: readData (w :: rest)

/-- The bus events of a complete READ of `bytes` (rules R131, R152). -/
def readTrace (addr : BitVec 7) (bytes : List Byte) : List Event :=
  [.start, .addr (addr ++ 1#1), .ack] ++ readData bytes ++ [.stop]

/-- `bytes` are what BUF holds at indexes 0 to N − 1, every one written (rule R52). -/
def BufHolds (mem : Memory) (n : Nat) (bytes : List Byte) : Prop :=
  bytes.length = n ∧ ∀ i, i < n → mem.read i = bytes[i]?

/-! ### The step bound (rule R241) -/

/-- The bound on the MTE steps of a command of `n` bytes with budget `b`, ABORT included (rule R241). -/
def stepBound (op : CmdOp) (n b : Nat) : Nat :=
  match op with
  | .none => 0
  | .init => 9
  | .write => (n + 6) + (2 * n + 5) * b
  | .read => (n + 7) + (n + 5) * b

/-- The MTE steps a running command can still take, ABORT included: the micro-operations ahead, `b` reads for each poll
ahead, `m.cnt` reads for the poll or ABORT it is in, and `b + 1` steps for ABORT. -/
def stepsLeft (m : Mte) (b : Nat) : Nat :=
  let c := m.cnt.toNat
  let i := m.idx.toNat
  let n := transferLength m
  match m.upc.toNat with
  | 9 => (n + 6) + (2 * n + 5) * b
  | 10 => c + (n + 5) + (2 * n + 4) * b
  | 11 => c + (n + 5) + (2 * n + 3) * b
  | 12 => (n + 5) + (2 * n + 3) * b
  | 13 => c + (n + 4) + (2 * n + 2) * b
  | 14 => (n + 4) + (2 * n + 2) * b
  | 15 => c + (n - i) + 3 + (2 * (n - i) + 1) * b
  | 16 => (n - i) + 3 + (2 * (n - i) + 1) * b
  | 17 => c + (n - i) + 2 + 2 * (n - i) * b
  | 18 => 3 + 2 * b
  | 19 => c + 2 + b
  | 20 => 2 + b
  | 21 => (n + 7) + (n + 5) * b
  | 22 => (n + 6) + (n + 5) * b
  | 23 => c + (n + 5) + (n + 4) * b
  | 24 => c + (n + 5) + (n + 3) * b
  | 25 => (n + 5) + (n + 3) * b
  | 26 => c + (n + 4) + (n + 2) * b
  | 27 => (n + 4) + (n + 2) * b
  | 28 => c + (n - i) + 3 + (n - i + 1) * b
  | 29 => (n - i) + 3 + (n - i + 1) * b
  | 30 => 4 + 3 * b
  | 31 => c + 3 + 2 * b
  | 32 => 3 + 2 * b
  | 33 => c + 2 + b
  | 34 => 2 + b
  | 35 => if m.aph then c else 1 + c
  | u => 9 - u

end Sys2Proof.Safety
end

