-- ==== Sys2Proof/Certificates/Slice0/Obligations.lean ====
section
/-! DEFINITION. The statements for the provers. -/

open Sys2Proof Sys2Proof.Machine Sys2Proof.Safety

/-- Decoding the encoding of a well-formed instruction gives it back. Rules R81, R82, R85, R87: no bit of an encoding is dropped. -/
def Obligations.DecodeOfEncodeGivesTheInstruction : Prop :=
  ∀ i : Instr, i.wellFormed = true → decode (encode i) = .ok i

/-- Every command word decodes and encodes back; a ROM word does exactly when no field of it is reserved. Rules R80 to R84: every CMD word has exactly one meaning. Rules R85 and R87: the reserved OP and SEQ codes and the reserved bits. -/
def Obligations.EveryWordHasItsOneMeaning : Prop :=
  (∀ w : Word, (decodeCmd w).wellFormed = true ∧ encode (decodeCmd w) = .cmd w) ∧
    ∀ w : Half,
      ((∃ i, decodeUop w = .ok i) ↔
        w.extractLsb' 14 2 = 0#2 ∧ (w.extractLsb' 5 3).toNat < 6 ∧ (w.extractLsb' 0 5).toNat ≤ 0x18) ∧
      ∀ i, decodeUop w = .ok i → encode i = .uop w

/-- Words written out from the spec's encodings decode to what they stand for. The vectors of 95_test_vectors.md section 3: a sanity check of bit positions. -/
def Obligations.SpecWordsDecode : Prop :=
  decodeCmd 0x0F424005#32 = .init .fast .d2 16000000#28 ∧
    decodeCmd 0x0F42400D#32 = .init .fast .d169 16000000#28 ∧
    decodeCmd 0x00015302#32 = .write 0x53#7 1#8 ∧
    decodeCmd 0x00FF7F03#32 = .read 0x7F#7 255#8 ∧
    decodeCmd 0x0001D302#32 = .badCommand 0x0001D302#32 ∧
    decodeCmd 0x00000000#32 = .badCommand 0x00000000#32 ∧
    decodeUop 0x00A1#16 = .ok (.tcuEval .cfgchk 0#6) ∧
    decodeUop 0x0F52#16 = .ok (.pollBtf .loopw 15#6) ∧
    decodeUop 0x1E8F#16 = .ok (.clrAddr .skip1 30#6) ∧
    decodeUop 0x1C76#16 = .ok (.rxData .loopr 28#6) ∧
    decodeUop 0x0019#16 = .error .reservedOp ∧
    decodeUop 0x00C0#16 = .error .reservedSeq ∧
    decodeUop 0x4000#16 = .error .reservedBits

/-- The ROM of the reset state holds the 36 words of the listing, which decode to its micro-operations. Rule R86: the listing, its words and what they stand for. -/
def Obligations.RomHoldsTheMicroprogram : Prop :=
  State.reset.rom =
      [0x00A1#16, 0x0002#16, 0x0003#16, 0x0004#16, 0x0005#16, 0x0006#16, 0x0007#16, 0x0008#16, 0x0020#16, 0x000A#16,
       0x000B#16, 0x000C#16, 0x000D#16, 0x000E#16, 0x000F#16, 0x0010#16, 0x0011#16, 0x0F52#16, 0x0013#16, 0x0014#16,
       0x0020#16, 0x0009#16, 0x000A#16, 0x000B#16, 0x000C#16, 0x000D#16, 0x000E#16, 0x1E8F#16, 0x0015#16, 0x1C76#16,
       0x0017#16, 0x0015#16, 0x0016#16, 0x0014#16, 0x0020#16, 0x0038#16] ∧
    State.reset.rom.map (fun w => (decodeUop w).toOption) =
      [some (.tcuEval .cfgchk 0#6), some (.peOff .next 0#6), some (.selI2c .next 0#6), some (.setOpts .next 0#6),
       some (.wrFreq .next 0#6), some (.wrCcr .next 0#6), some (.wrTrise .next 0#6), some (.peOn .next 0#6),
       some (.done .endCmd 0#6)] ++
      [some (.genStart .next 0#6), some (.pollSb .next 0#6), some (.pollMb .next 0#6), some (.txAddr .next 0#6),
       some (.pollAddr .next 0#6), some (.clrAddr .next 0#6), some (.pollTxe .next 0#6), some (.txData .next 0#6),
       some (.pollBtf .loopw 15#6), some (.genStop .next 0#6), some (.pollStop .next 0#6), some (.done .endCmd 0#6)] ++
      [some (.ackOn .next 0#6), some (.genStart .next 0#6), some (.pollSb .next 0#6), some (.pollMb .next 0#6),
       some (.txAddr .next 0#6), some (.pollAddr .next 0#6), some (.clrAddr .skip1 30#6), some (.pollRxne .next 0#6),
       some (.rxData .loopr 28#6), some (.nackStop .next 0#6), some (.pollRxne .next 0#6), some (.rxData .next 0#6),
       some (.pollStop .next 0#6), some (.done .endCmd 0#6), some (.abort .endCmd 0#6)]

/-- The reset state: every MTE register 0, BUF unwritten, the controller's reset values, an empty trace. Rule R225's table. -/
def Obligations.ResetLeavesTheBlockIdle : Prop :=
  State.reset.m =
      { busy := false, op := .none, upc := 0#6, addr := 0#7, dir := .write, nm1 := 0#8, idx := 0#9, cnt := 0#16,
        armed := false, err := .none, aph := false, nostop := false, result := .none, errupc := 0#6, clk := 0#28,
        mode := .std, duty := .d2, freq := 0#8, trise := 0#8, ccr := 0#12, fs := false, dutybit := false,
        cfgvalid := false } ∧
    statusImage State.reset.m = 0x00000000#32 ∧ cfgoutImage State.reset.m = 0x00000000#32 ∧
    (∀ i, State.reset.buf.read i = none) ∧
    State.reset.b =
      { cr1 := 0x0000#16, cr2 := 0x0000#16, oar1 := 0x0000#16, oar2 := 0x0000#16, dr := 0x0000#16, sr1 := 0x0000#16,
        sr2 := 0x0000#16, ccr := 0x0000#16, trise := 0x0002#16, fltr := 0x0000#16, bmode := .idle, txPending := false,
        sr1SeenSB := false, sr1SeenADDR := false, otherBusy := false } ∧
    State.reset.trace = [] ∧ ¬ Faulted State.reset ∧ State.reset.refusalMark = false

/-- Every launch state meets the invariants of the bus controller, the MTE and BUF. The invariants that the other statements show every step to keep hold at reset (rules R181, R225). -/
def Obligations.ResetMeetsTheInvariants : Prop :=
  (∀ c p q, BusInv (launch c p q) ∧ MteInv (launch c p q) ∧ QuietBits (launch c p q) ∧ InitDisabled (launch c p q) ∧
        AbortReleases (launch c p q) ∧ Memory.wf (launch c p q).buf = true) ∧
    BusInv State.reset ∧ MteInv State.reset ∧ QuietBits State.reset ∧ InitDisabled State.reset ∧
      AbortReleases State.reset ∧ Memory.wf State.reset.buf = true

/-- A step takes the next turn; the MTE's turn runs the micro-instruction at m.upc, nothing when idle, and refuses a reserved word. Rules R19, R20, R61, R65, R87 and R211. That a schedule in the state says which agent steps is the model's choice (log entry 3), and that a refusal is a next state is its reading (log entry 7). -/
def Obligations.StepRunsTheDecodedMicroInstruction : Prop :=
  (∀ (s : State) (t : Turn) (rest : List Turn), ¬ Faulted s → s.schedule = t :: rest →
        step s = runTurn t { s with schedule := rest }) ∧
    (∀ (s : State) (rest : List Turn) (w : Half) (i : Instr), ¬ Faulted s → s.schedule = .mte :: rest →
      s.m.busy = true → s.rom[s.m.upc.toNat]? = some w → decodeUop w = .ok i →
      step s = exec i { s with schedule := rest }) ∧
    ∀ s : State,
      (s.m.busy = false → runTurn .mte s = .next s) ∧
      ∀ w e, s.m.busy = true → s.rom[s.m.upc.toNat]? = some w → decodeUop w = .error e →
        runTurn .mte s = .next { s with refusalMark := true }

/-- The host's turn makes the next access of its program: a CMD write runs its descriptor, a wait reads STATUS until BUSY = 0. Rules R51, R54, R55, R61, R83, R91. The model's choices: the schedule (log entry 3), the field hostData (log entry 8), the form of a wait, the fields callResult and callerBuffer, and no result for a RESULT that rule R91 does not list (log entry 16). -/
def Obligations.StepRunsTheHostsNextAccess : Prop :=
  ∀ (s : State) (rest : List Turn), ¬ Faulted s → s.schedule = .host :: rest →
      (s.program = [] → step s = .next { s with schedule := rest }) ∧
      (∀ a p, s.program = .access a :: p → step s = hostAccess a { s with schedule := rest, program := p }) ∧
      (∀ w p, s.program = .access (.write .word 0x000 w) :: p →
        step s = exec (decodeCmd w) { s with schedule := rest, program := p }) ∧
      (∀ c p, s.program = .wait c :: p → s.m.busy = true →
        step s = .next { s with schedule := rest, hostData := some (.word (statusImage s.m)) }) ∧
      (∀ p, s.program = .wait none :: p → s.m.busy = false →
        step s = .next { s with schedule := rest, hostData := some (.word (statusImage s.m)), program := p }) ∧
      (∀ p, s.program = .wait (some .init) :: p → s.m.busy = false →
        step s = .next { s with
          schedule := rest, hostData := some (.word (statusImage s.m)), program := p,
          callResult :=
            if s.m.result = .ok then some .ok else if s.m.result = .configError then some .configError else none }) ∧
      (∀ c p, s.program = .wait (some c) :: p → c ≠ .init → s.m.busy = false →
        step s = .next { s with
          schedule := rest, hostData := some (.word (statusImage s.m)),
          program :=
            (match c with
              | .read n => if s.m.result = .ok then (List.range n).map HostStep.fetch else []
              | .write => []
              | .init => []) ++ p,
          callResult :=
            if s.m.result = .ok then some .ok else if s.m.result = .timeout then some .timeout
            else if s.m.result = .nackReceived then some .nackReceived
            else if s.m.result = .arbitrationLost then some .arbitrationLost else none }) ∧
      (∀ i p, s.program = .fetch i :: p → i < 256 →
        (s.m.busy = true → step s = .next { s with schedule := rest, program := p, refusalMark := true }) ∧
        (s.m.busy = false → s.buf.read i = none →
          step s = .next { s with
            schedule := rest, program := p, faults := { s.faults with unwrittenBuf := true } }) ∧
        ∀ x, s.m.busy = false → s.buf.read i = some x →
          ∃ mem : Memory, mem.read i = some x ∧ (∀ j, j ≠ i → mem.read j = s.callerBuffer.read j) ∧
            step s = .next { s with
              schedule := rest, program := p, hostData := some (.byte x), callerBuffer := mem })

/-- A state in which a sticky fault is recorded is quiescent and never an end of a run. Rule R210: no agent takes a further step, and the state is never final. -/
def Obligations.FaultedStateTakesNoStep : Prop :=
  ∀ s : State, Faulted s →
      (∃ f, step s = .fault (.recorded f) ∧
        (f = .unwrittenBuf ∧ s.faults.unwrittenBuf = true ∨ f = .abortWithoutStop ∧ s.faults.abortWithoutStop = true)) ∧
      ¬ RunEnded s

/-- A CMD write is decoded and accepted as rule R83 says, over the raw bits of the word. Rules R83 and R84, on the bits of the word itself. -/
def Obligations.CmdWriteFollowsTheDescriptor : Prop :=
  ∀ (v : Word) (s : State),
      (s.m.busy = true → exec (decodeCmd v) s = .next { s with refusalMark := true }) ∧
      (s.m.busy = false →
        (v.extractLsb' 0 2 = 0#2 ∨
          (v.extractLsb' 0 2 ≠ 1#2 ∧
            (v.extractLsb' 2 6 ≠ 0#6 ∨ v.getLsbD 15 = true ∨ v.extractLsb' 24 8 ≠ 0#8)) →
          exec (decodeCmd v) s = .next { s with m := { s.m with result := .badCommand, errupc := 0#6 } }) ∧
        (v.extractLsb' 0 2 = 1#2 →
          exec (decodeCmd v) s =
            .next { s with m := { s.m with
              op := .init, result := .none, errupc := 0#6, err := .none, armed := false, nostop := false,
              clk := v.extractLsb' 4 28, mode := if v.getLsbD 2 then .fast else .std,
              duty := if v.getLsbD 3 then .d169 else .d2, upc := 0#6, busy := true } }) ∧
        (v.extractLsb' 0 2 = 2#2 → v.extractLsb' 2 6 = 0#6 → v.getLsbD 15 = false → v.extractLsb' 24 8 = 0#8 →
          exec (decodeCmd v) s =
            .next { s with m := { s.m with
              op := .write, result := .none, errupc := 0#6, err := .none, armed := false, nostop := false,
              addr := v.extractLsb' 8 7, dir := .write, nm1 := v.extractLsb' 16 8, idx := 0#9, upc := 9#6,
              busy := true } }) ∧
        (v.extractLsb' 0 2 = 3#2 → v.extractLsb' 2 6 = 0#6 → v.getLsbD 15 = false → v.extractLsb' 24 8 = 0#8 →
          exec (decodeCmd v) s =
            .next { s with m := { s.m with
              op := .read, result := .none, errupc := 0#6, err := .none, armed := false, nostop := false,
              addr := v.extractLsb' 8 7, dir := .read, nm1 := v.extractLsb' 16 8, idx := 0#9, upc := 21#6,
              busy := true } }))

/-- INIT, WRITE, READ and BAD_COMMAND complete in every idle state and are refused while a command runs. Rules R83 and R84, one conjunct per command, and the last item of rule R56. -/
def Obligations.CommandsIdleAndBusy : Prop :=
  ∀ s : State,
      (s.m.busy = false →
        (∀ mode duty clk, exec (.init mode duty clk) s =
          .next { s with m := { s.m with
            op := .init, result := .none, errupc := 0#6, err := .none, armed := false, nostop := false,
            clk := clk, mode := mode, duty := duty, upc := 0#6, busy := true } }) ∧
        (∀ addr lenm1, exec (.write addr lenm1) s =
          .next { s with m := { s.m with
            op := .write, result := .none, errupc := 0#6, err := .none, armed := false, nostop := false,
            addr := addr, dir := .write, nm1 := lenm1, idx := 0#9, upc := 9#6, busy := true } }) ∧
        (∀ addr lenm1, exec (.read addr lenm1) s =
          .next { s with m := { s.m with
            op := .read, result := .none, errupc := 0#6, err := .none, armed := false, nostop := false,
            addr := addr, dir := .read, nm1 := lenm1, idx := 0#9, upc := 21#6, busy := true } }) ∧
        (∀ w, exec (.badCommand w) s = .next { s with m := { s.m with result := .badCommand, errupc := 0#6 } })) ∧
      (s.m.busy = true →
        (∀ mode duty clk, exec (.init mode duty clk) s = .next { s with refusalMark := true }) ∧
        (∀ addr lenm1, exec (.write addr lenm1) s = .next { s with refusalMark := true }) ∧
        (∀ addr lenm1, exec (.read addr lenm1) s = .next { s with refusalMark := true }) ∧
        (∀ w, exec (.badCommand w) s = .next { s with refusalMark := true }))

/-- The TCU accepts exactly the clocks from 2 MHz to below 51 MHz, except fast 16:9 below 10 MHz. Rules R102, R104 and R107 together. -/
def Obligations.TcuAcceptsExactly : Prop :=
  ∀ (clk : Nat) (mode : BusMode) (duty : Duty),
      (tcu clk mode duty).isSome = true ↔
        2000000 ≤ clk ∧ clk ≤ 50999999 ∧ ¬ (mode = .fast ∧ duty = .d169 ∧ clk < 10000000)

/-- An accepted TCU result holds the closed-form values, none of them narrowed. Rules R101, R103, R105, R106: the fields as natural numbers, so that narrowing changed nothing (rule R11). -/
def Obligations.TcuGivesTheFormulas : Prop :=
  ∀ (clk : Nat) (mode : BusMode) (duty : Duty) (o : TcuOut), tcu clk mode duty = some o →
      o.freq.toNat = clk / 1000000 ∧
      o.trise.toNat = clk / 1000000 * (if mode = .fast then 300 else 1000) / 1000 + 1 ∧
      o.ccr.toNat =
        (if mode = .std then clk / 200000 else if duty = .d2 then clk / 1200000 else clk / 10000000) ∧
      (o.fs = true ↔ mode = .fast) ∧ (o.dutybit = true ↔ mode = .fast ∧ duty = .d169)

/-- TCU_EVAL latches an accepted result, or ends the command with CONFIG_ERROR. Rule R116. -/
def Obligations.TcuEvalLatchesOrRejects : Prop :=
  ∀ (seq : Seq) (tgt : MicroAddr) (s : State),
      (∀ o, tcu s.m.clk.toNat s.m.mode s.m.duty = some o →
        exec (.tcuEval seq tgt) s =
          .next (applySeq seq tgt { s with m := { s.m with
            freq := o.freq, trise := o.trise, ccr := o.ccr, fs := o.fs, dutybit := o.dutybit, cfgvalid := true } }) ∧
        (s.m.upc = 0#6 → ∃ t, exec (.tcuEval .cfgchk tgt) s = .next t ∧ t.m.upc = 1#6)) ∧
      (tcu s.m.clk.toNat s.m.mode s.m.duty = none →
        exec (.tcuEval seq tgt) s =
          .next { s with m := { s.m with result := .configError, errupc := 0#6, busy := false } })

/-- The CR1 micro-operations with PE = 1 after the write change the bits their rules name. Rules R118, R119, R123, R136, R137, R146, R150, through the ordinary CR1 write rule of R40. -/
def Obligations.Cr1WritesWhileEnabled : Prop :=
  ∀ (seq : Seq) (tgt : MicroAddr) (s : State), flag s.b.cr1 15 = false →
      exec (.peOn seq tgt) s =
        .next (applySeq seq tgt { s with b := { s.b with cr1 := (s.b.cr1 ||| 0x0001#16) &&& 0xBFFB#16 } }) ∧
      (flag s.b.cr1 0 = true →
        exec (.selI2c seq tgt) s =
          .next (applySeq seq tgt { s with b := { s.b with cr1 := s.b.cr1 &&& 0xBFF9#16 } }) ∧
        exec (.setOpts seq tgt) s =
          .next (applySeq seq tgt { s with b := { s.b with
            cr1 := ((s.b.cr1 &&& 0xFF7F#16) ||| (if s.cfg.noStretchCfg then 0x0080#16 else 0x0000#16)) &&& 0xBFFB#16,
            fltr := (if s.cfg.anfOffCfg then 0x0010#16 else 0x0000#16) ||| s.cfg.dnfCfg.setWidth 16 } }) ∧
        exec (.ackOn seq tgt) s =
          .next (applySeq seq tgt { s with b := { s.b with cr1 := (s.b.cr1 ||| 0x0400#16) &&& 0xBFFB#16 } }) ∧
        exec (.genStart seq tgt) s =
          .next (applySeq seq tgt { s with b := { s.b with cr1 := (s.b.cr1 ||| 0x0100#16) &&& 0xBFFB#16 } }) ∧
        exec (.genStop seq tgt) s =
          .next (applySeq seq tgt { s with
            b := { s.b with cr1 := (s.b.cr1 ||| 0x0200#16) &&& 0xBFFB#16 }, m := { s.m with armed := false } }) ∧
        exec (.nackStop seq tgt) s =
          .next (applySeq seq tgt { s with
            b := { s.b with cr1 := ((s.b.cr1 &&& 0xFBFF#16) ||| 0x0200#16) &&& 0xBFFB#16 },
            m := { s.m with armed := false } }))

/-- PE_OFF, and the CR1 micro-operations with PE = 0, disable the controller when it is not master. Rule R40 through each micro-operation that writes CR1. -/
def Obligations.Cr1WritesWithPeZero : Prop :=
  ∀ (seq : Seq) (tgt : MicroAddr) (s : State), flag s.b.cr1 15 = false → s.b.bmode = .idle ∨ s.b.bmode = .lost →
      exec (.peOff seq tgt) s =
        .next (applySeq seq tgt { s with b := disabledBc s.b (s.b.cr1 &&& 0xB8FA#16) }) ∧
      (flag s.b.cr1 0 = false →
        exec (.selI2c seq tgt) s =
          .next (applySeq seq tgt { s with b := disabledBc s.b (s.b.cr1 &&& 0xB8F9#16) }) ∧
        exec (.setOpts seq tgt) s =
          .next (applySeq seq tgt { s with b := { disabledBc s.b
              (((s.b.cr1 &&& 0xFF7F#16) ||| (if s.cfg.noStretchCfg then 0x0080#16 else 0x0000#16)) &&& 0xB8FB#16) with
            fltr := (if s.cfg.anfOffCfg then 0x0010#16 else 0x0000#16) ||| s.cfg.dnfCfg.setWidth 16 } }) ∧
        exec (.ackOn seq tgt) s =
          .next (applySeq seq tgt { s with b := disabledBc s.b (s.b.cr1 &&& 0xB8FB#16) }) ∧
        exec (.genStart seq tgt) s =
          .next (applySeq seq tgt { s with b := disabledBc s.b (s.b.cr1 &&& 0xB8FB#16) }) ∧
        exec (.genStop seq tgt) s =
          .next (applySeq seq tgt { s with
            b := disabledBc s.b (s.b.cr1 &&& 0xB8FB#16), m := { s.m with armed := false } }) ∧
        exec (.nackStop seq tgt) s =
          .next (applySeq seq tgt { s with
            b := disabledBc s.b (s.b.cr1 &&& 0xB8FB#16), m := { s.m with armed := false } }))

/-- A CR1 write with PE = 0 while the controller is master records ABORT_WITHOUT_STOP. Rules R40 and R210. That a faulting micro-operation changes nothing else is the model's reading (log entry 6). -/
def Obligations.PeZeroWhileMasterRecordsTheFault : Prop :=
  ∀ (seq : Seq) (tgt : MicroAddr) (s : State), flag s.b.cr1 15 = false → s.b.bmode ≠ .idle → s.b.bmode ≠ .lost →
      exec (.peOff seq tgt) s = .next (s.recordFault .abortWithoutStop) ∧
      (flag s.b.cr1 0 = false →
        exec (.selI2c seq tgt) s = .next (s.recordFault .abortWithoutStop) ∧
        exec (.setOpts seq tgt) s = .next (s.recordFault .abortWithoutStop) ∧
        exec (.ackOn seq tgt) s = .next (s.recordFault .abortWithoutStop) ∧
        exec (.genStart seq tgt) s = .next (s.recordFault .abortWithoutStop) ∧
        exec (.genStop seq tgt) s = .next (s.recordFault .abortWithoutStop) ∧
        exec (.nackStop seq tgt) s = .next (s.recordFault .abortWithoutStop) ∧
        (s.m.aph = false → exec (.abort seq tgt) s = .next (s.recordFault .abortWithoutStop)))

/-- WR_FREQ, WR_CCR and WR_TRISE write the TCU's outputs into CR2, CCR and TRISE. Rules R120 to R122. -/
def Obligations.TimingFieldWrites : Prop :=
  ∀ (seq : Seq) (tgt : MicroAddr) (s : State),
      exec (.wrFreq seq tgt) s =
        .next (applySeq seq tgt { s with b := { s.b with
          cr2 := (s.b.cr2 &&& 0x1F00#16) ||| s.m.freq.setWidth 16 } }) ∧
      exec (.wrCcr seq tgt) s =
        .next (applySeq seq tgt { s with b := { s.b with
          ccr := (if s.m.fs then 0x8000#16 else 0x0000#16) ||| (if s.m.dutybit then 0x4000#16 else 0x0000#16) |||
            s.m.ccr.setWidth 16 } }) ∧
      exec (.wrTrise seq tgt) s =
        .next (applySeq seq tgt { s with b := { s.b with trise := s.m.trise.setWidth 16 } })

/-- TX_ADDR writes the address byte to DR; TX_DATA writes BUF[m.idx], or faults if it was never written. Rules R140 and R144, with the DR write of rule R39. That a TX_DATA of an unwritten byte changes nothing but the fault (no SEQ, no register) is the model's reading (log entry 6). -/
def Obligations.TxAddrAndTxDataWriteDr : Prop :=
  ∀ (seq : Seq) (tgt : MicroAddr) (s : State),
      (∃ c, DrWrite (s.m.addr ++ (if s.m.dir = .read then 1#1 else 0#1)) s.b c ∧
        exec (.txAddr seq tgt) s = .next (applySeq seq tgt { s with b := c })) ∧
      (∀ v, s.buf.read s.m.idx.toNat = some v →
        ∃ c, DrWrite v s.b c ∧ exec (.txData seq tgt) s = .next (applySeq seq tgt { s with b := c })) ∧
      (s.buf.read s.m.idx.toNat = none →
        exec (.txData seq tgt) s = .next { s with faults := { s.faults with unwrittenBuf := true } })

/-- CLR_ADDR clears ADDR through the SR2 read, and TXE is then set in transmit. Rule R142, with the SR2 read of rule R38. -/
def Obligations.ClrAddrReadsSr2 : Prop :=
  ∀ (seq : Seq) (tgt : MicroAddr) (s : State),
      (flag s.b.sr1 1 = true → s.b.sr1SeenADDR = true →
        exec (.clrAddr seq tgt) s =
          .next (applySeq seq tgt { s with b := { s.b with
            sr1 := (s.b.sr1 &&& 0xFFFD#16) ||| (if s.b.bmode = .mTx then 0x0080#16 else 0x0000#16),
            sr1SeenADDR := false } })) ∧
      (¬ (flag s.b.sr1 1 = true ∧ s.b.sr1SeenADDR = true) →
        exec (.clrAddr seq tgt) s = .next (applySeq seq tgt s))

/-- RX_DATA stores DR's byte in BUF[m.idx], marks it written and counts it. Rule R149. The stop outside BUF is the model's own, for states no run reaches (log entry 10). -/
def Obligations.RxDataStoresOneByte : Prop :=
  ∀ (seq : Seq) (tgt : MicroAddr) (s : State),
      (s.m.idx.toNat < 256 →
        ∃ mem : Memory, mem.read s.m.idx.toNat = some (s.b.dr.extractLsb' 0 8) ∧
          (∀ j, j ≠ s.m.idx.toNat → mem.read j = s.buf.read j) ∧
          exec (.rxData seq tgt) s =
            .next (applySeq seq tgt { s with
              buf := mem, m := { s.m with idx := s.m.idx + 1 }, b := { s.b with sr1 := s.b.sr1 &&& 0xFFBB#16 } })) ∧
      (256 ≤ s.m.idx.toNat → exec (.rxData seq tgt) s = .fault .bufIndexOutside)

/-- DONE ends the command with OK. Rule R135; at upc 20 with N = 2 bytes done STATUS then reads 0x0002_0010. -/
def Obligations.DoneEndsTheCommandOk : Prop :=
  ∀ (seq : Seq) (tgt : MicroAddr) (s : State),
      exec (.done seq tgt) s =
        .next (applySeq seq tgt { s with m := { s.m with
          result := .ok, errupc := 0#6, armed := false, busy := false } }) ∧
      (s.m.idx = 2#9 → s.m.nostop = false →
        ∃ t, exec (.done .endCmd tgt) s = .next t ∧ statusImage t.m = 0x00020010#32)

/-- POLL_SB, POLL_MB and POLL_STOP complete on their condition, else the budget rule applies. Rules R132, R134, R138, R139, R147. The reads, the sequencer and the budget rule have statements of their own. -/
def Obligations.PollsWithoutChecks : Prop :=
  ∀ (seq : Seq) (tgt : MicroAddr) (s : State),
      exec (.pollSb seq tgt) s =
        .next (if flag s.b.sr1 0 then applySeq seq tgt (readSr1 s).2 else pollUnresolved (readSr1 s).2) ∧
      exec (.pollMb seq tgt) s =
        .next (if flag s.b.sr2 0 ∧ flag s.b.sr2 1 then
            applySeq seq tgt { (readSr2 s).2 with m := { s.m with armed := true } }
          else pollUnresolved (readSr2 s).2) ∧
      exec (.pollStop seq tgt) s = .next (if flag s.b.cr1 9 then pollUnresolved s else applySeq seq tgt s)

/-- POLL_ADDR, POLL_TXE, POLL_BTF and POLL_RXNE check arbitration, then NACK, then their condition, then the budget. Rules R132 and R134 with the order of rule R206. -/
def Obligations.PollsWithChecks : Prop :=
  ∀ (seq : Seq) (tgt : MicroAddr) (s : State),
      exec (.pollAddr seq tgt) s =
        .next (if s.m.armed = true ∧ flag s.b.sr1 9 = true then raise .arbitrationLost (readSr1 s).2
          else if flag s.b.sr1 10 then raise .nackReceived (readSr1 s).2
          else if flag s.b.sr1 1 then applySeq seq tgt (readSr1 s).2
          else pollUnresolved (readSr1 s).2) ∧
      exec (.pollTxe seq tgt) s =
        .next (if s.m.armed = true ∧ (flag s.b.sr1 9 = true ∨ flag s.b.sr2 0 = false ∨ flag s.b.sr2 1 = false) then
            raise .arbitrationLost (readSr2 (readSr1 s).2).2
          else if flag s.b.sr1 10 then raise .nackReceived (readSr2 (readSr1 s).2).2
          else if flag s.b.sr1 7 then applySeq seq tgt (readSr2 (readSr1 s).2).2
          else pollUnresolved (readSr2 (readSr1 s).2).2) ∧
      exec (.pollBtf seq tgt) s =
        .next (if s.m.armed = true ∧ (flag s.b.sr1 9 = true ∨ flag s.b.sr2 0 = false ∨ flag s.b.sr2 1 = false) then
            raise .arbitrationLost (readSr2 (readSr1 s).2).2
          else if flag s.b.sr1 10 then raise .nackReceived (readSr2 (readSr1 s).2).2
          else if flag s.b.sr1 2 then
            applySeq seq tgt { (readSr2 (readSr1 s).2).2 with m := { s.m with idx := s.m.idx + 1 } }
          else pollUnresolved (readSr2 (readSr1 s).2).2) ∧
      (s.m.armed = true →
        exec (.pollRxne seq tgt) s =
          .next (if flag s.b.sr1 9 = true ∨ flag s.b.sr2 0 = false ∨ flag s.b.sr2 1 = false then
              raise .arbitrationLost (readSr2 (readSr1 s).2).2
            else if flag s.b.sr1 6 then applySeq seq tgt (readSr2 (readSr1 s).2).2
            else pollUnresolved (readSr2 (readSr1 s).2).2)) ∧
      (s.m.armed = false →
        exec (.pollRxne seq tgt) s =
          .next (if flag s.b.sr1 6 then applySeq seq tgt (readSr1 s).2 else pollUnresolved (readSr1 s).2))

/-- One iteration of a poll keeps m.upc, goes to ABORT with its address saved, or completes and applies SEQ. Rules R132, R133 and R207: what one iteration of any poll can do. -/
def Obligations.PollIterationStaysRaisesOrCompletes : Prop :=
  ∀ (seq : Seq) (tgt : MicroAddr) (s : State) (i : Instr),
      i ∈ [Instr.pollSb seq tgt, .pollMb seq tgt, .pollAddr seq tgt, .pollTxe seq tgt, .pollBtf seq tgt,
        .pollRxne seq tgt, .pollStop seq tgt] →
      ∃ t, exec i s = .next t ∧
        (t.m.upc = s.m.upc ∧ t.m.busy = s.m.busy ∨
         t.m.upc = 35#6 ∧ t.m.errupc = s.m.upc ∧
          (t.m.err = .timeout ∨ t.m.err = .nackReceived ∨ t.m.err = .arbitrationLost) ∨
         ∃ u, t = applySeq seq tgt u ∧ u.m.upc = s.m.upc ∧ u.m.errupc = s.m.errupc) ∧
        t.buf = s.buf ∧ t.trace = s.trace ∧ t.b.cr1 = s.b.cr1 ∧ t.b.sr2 = s.b.sr2 ∧ t.b.dr = s.b.dr ∧
        t.m.addr = s.m.addr ∧ t.m.nm1 = s.m.nm1 ∧ t.m.result = s.m.result

/-- An unresolved read counts the budget down and raises Timeout at 0; raising saves the error and goes to ABORT. Rules R133, R132 and R207: the budget, and what error entry saves and where it goes. -/
def Obligations.BudgetRuleAndRaise : Prop :=
  ∀ s : State,
      (s.cfg.pollBudget = 0#16 → pollUnresolved s = s) ∧
      (s.cfg.pollBudget ≠ 0#16 → s.m.cnt ≠ 1#16 → pollUnresolved s = { s with m := { s.m with cnt := s.m.cnt - 1 } }) ∧
      (s.cfg.pollBudget ≠ 0#16 → s.m.cnt = 1#16 →
        pollUnresolved s = raise .timeout { s with m := { s.m with cnt := 0#16 } }) ∧
      ∀ e : ErrKind,
        (s.rom[35]? = some 0x0038#16 → s.m.upc ≠ 35#6 →
          raise e s = { s with m := { s.m with
            err := e, errupc := s.m.upc, upc := 35#6, cnt := s.cfg.pollBudget } }) ∧
        ∃ c, raise e s = { s with m := { s.m with err := e, errupc := s.m.upc, upc := 35#6, cnt := c } }

/-- ABORT's phase 0 clears START and ACK, sets STOP, clears AF and ARLO and starts phase 1. Rule R204, phase 0, and its corner case of a disabled controller. -/
def Obligations.AbortAssertsStop : Prop :=
  ∀ (seq : Seq) (tgt : MicroAddr) (s : State), s.m.aph = false → flag s.b.cr1 15 = false →
      (flag s.b.cr1 0 = true →
        exec (.abort seq tgt) s =
          .next { s with
            b := { s.b with
              cr1 := ((s.b.cr1 &&& 0xFAFF#16) ||| 0x0200#16) &&& 0xBFFB#16, sr1 := s.b.sr1 &&& 0xF9FF#16 },
            m := { s.m with armed := false, aph := true } }) ∧
      (flag s.b.cr1 0 = false → s.b.bmode = .idle ∨ s.b.bmode = .lost →
        exec (.abort seq tgt) s =
          .next { s with
            b := disabledBc s.b (s.b.cr1 &&& 0xB8FB#16), m := { s.m with armed := false, aph := true } })

/-- ABORT's phase 1 ends the command with the error on stop-sent or when the budget runs out, else it goes on. Rule R204, phase 1 and finish. -/
def Obligations.AbortEndsTheCommandWithItsError : Prop :=
  ∀ (seq : Seq) (tgt : MicroAddr) (s : State), s.m.aph = true →
      (flag s.b.cr1 9 = false →
        exec (.abort seq tgt) s =
          .next (applySeq seq tgt { s with m := { s.m with
            result := s.m.err.result, err := .none, aph := false, busy := false } })) ∧
      (flag s.b.cr1 9 = true → s.cfg.pollBudget = 0#16 → exec (.abort seq tgt) s = .next s) ∧
      (flag s.b.cr1 9 = true → s.cfg.pollBudget ≠ 0#16 → s.m.cnt ≠ 1#16 →
        exec (.abort seq tgt) s = .next { s with m := { s.m with cnt := s.m.cnt - 1 } }) ∧
      (flag s.b.cr1 9 = true → s.cfg.pollBudget ≠ 0#16 → s.m.cnt = 1#16 →
        exec (.abort seq tgt) s =
          .next (applySeq seq tgt { s with m := { s.m with
            cnt := 0#16, nostop := true, result := s.m.err.result, err := .none, aph := false, busy := false } })) ∧
      s.m.err.result.code = s.m.err.code.setWidth 4

/-- Each SEQ kind moves m.upc as the table says, loading m.cnt on entry to a poll or ABORT. Rules R85 and R23. SEQ kinds on micro-operations outside the ROM listing are read as log entry 9 says. -/
def Obligations.SeqMovesTheMicroPc : Prop :=
  ∀ (seq : Seq) (tgt : MicroAddr) (s : State), s.rom = romWords →
      (seq = .endCmd → applySeq seq tgt s = { s with m := { s.m with busy := false } }) ∧
      (seq ≠ .endCmd →
        applySeq seq tgt s = { s with m := { s.m with
          upc := (applySeq seq tgt s).m.upc,
          cnt := if (applySeq seq tgt s).m.upc ≠ s.m.upc ∧
              (applySeq seq tgt s).m.upc ∈
                [10#6, 11#6, 13#6, 15#6, 17#6, 19#6, 23#6, 24#6, 26#6, 28#6, 31#6, 33#6, 35#6] then
            s.cfg.pollBudget else s.m.cnt } }) ∧
      (seq = .next ∨ seq = .cfgchk → (applySeq seq tgt s).m.upc = s.m.upc + 1) ∧
      (seq = .loopw →
        (applySeq seq tgt s).m.upc = if s.m.idx.toNat < s.m.nm1.toNat + 1 then tgt else s.m.upc + 1) ∧
      (seq = .loopr →
        (applySeq seq tgt s).m.upc = if s.m.idx.toNat < s.m.nm1.toNat then tgt else s.m.upc + 1) ∧
      (seq = .skip1 → (applySeq seq tgt s).m.upc = if s.m.nm1 = 0#8 then tgt else s.m.upc + 1)

/-- Reading SR1, SR2 and DR returns the value before the read and has the side effects of rules R38 and R39. Rules R38 and R39. -/
def Obligations.StatusAndDataReadEffects : Prop :=
  ∀ s : State,
      bcRead 0x14 s = .ok (s.b.sr1, { s with b := { s.b with
        sr1SeenSB := if flag s.b.sr1 0 then true else s.b.sr1SeenSB,
        sr1SeenADDR := if flag s.b.sr1 1 then true else s.b.sr1SeenADDR } }) ∧
      (flag s.b.sr1 1 = true ∧ s.b.sr1SeenADDR = true →
        bcRead 0x18 s = .ok (s.b.sr2, { s with b := { s.b with
          sr1 := (s.b.sr1 &&& 0xFFFD#16) ||| (if s.b.bmode = .mTx then 0x0080#16 else 0x0000#16),
          sr1SeenADDR := false } })) ∧
      (¬ (flag s.b.sr1 1 = true ∧ s.b.sr1SeenADDR = true) → bcRead 0x18 s = .ok (s.b.sr2, s)) ∧
      bcRead 0x10 s = .ok (s.b.dr &&& 0x00FF#16, { s with b := { s.b with sr1 := s.b.sr1 &&& 0xFFBB#16 } }) ∧
      ∀ v : Half, ∃ c, DrWrite (v.extractLsb' 0 8) s.b c ∧ bcWrite 0x10 v s = .ok { s with b := c }

/-- A CR1 write with PE = 0 disables the controller or faults; the other registers take their implemented bits. Rules R31 to R33, R36, R37, R40 and R42. That a write of SR2 is ignored, and no refusal, is the model's reading (log entry 15). -/
def Obligations.ControlRegisterWrites : Prop :=
  ∀ (v : Half) (s : State), flag v 15 = false →
      (flag v 0 = true → bcWrite 0x00 v s = .ok { s with b := { s.b with cr1 := v &&& 0xBFFB#16 } }) ∧
      (flag v 0 = false → s.b.bmode = .idle ∨ s.b.bmode = .lost →
        bcWrite 0x00 v s = .ok { s with b := disabledBc s.b (v &&& 0xB8FB#16) }) ∧
      (flag v 0 = false → s.b.bmode ≠ .idle → s.b.bmode ≠ .lost →
        bcWrite 0x00 v s = .fault .abortWithoutStop) ∧
      ∀ u : Half,
        bcWrite 0x04 u s = .ok { s with b := { s.b with cr2 := u &&& 0x1FFF#16 } } ∧
        bcWrite 0x14 u s = .ok { s with b := { s.b with sr1 := s.b.sr1 &&& (u ||| 0x20FF#16) } } ∧
        bcWrite 0x18 u s = .ok s ∧
        bcWrite 0x1C u s = .ok { s with b := { s.b with ccr := u &&& 0xCFFF#16 } } ∧
        bcWrite 0x20 u s = .ok { s with b := { s.b with trise := u &&& 0x00FF#16 } } ∧
        bcWrite 0x24 u s = .ok { s with b := { s.b with fltr := u &&& 0x001F#16 } }

/-- A CR1 write of SWRST = 1 and any access to OAR1, OAR2 or an offset that is no register is refused. Rules R43 and R211. That SWRST = 1 is refused even with PE = 0 while the controller is master is the model's reading (log entry 15), and so is that a refused micro-operation changes nothing else (log entry 7). -/
def Obligations.UnmodelledAccessesAreRefused : Prop :=
  (∀ (v : Half) (s : State), flag v 15 = true → bcWrite 0x00 v s = .refuse) ∧
    (∀ (off : Nat) (v : Half) (s : State), off = 0x08 ∨ off = 0x0C ∨ 0x28 ≤ off ∨ off % 4 ≠ 0 →
      bcRead off s = .refuse ∧ bcWrite off v s = .refuse) ∧
    ∀ (seq : Seq) (tgt : MicroAddr) (s : State) (i : Instr), flag s.b.cr1 15 = true →
      i ∈ [Instr.peOff seq tgt, .selI2c seq tgt, .setOpts seq tgt, .peOn seq tgt, .ackOn seq tgt, .genStart seq tgt,
        .genStop seq tgt, .nackStop seq tgt] ∨ i = .abort seq tgt ∧ s.m.aph = false →
      exec i s = .next { s with refusalMark := true }

/-- The START step: its guard and its effect. Rule R170. That a turn whose guard does not hold changes nothing is the stutter of log entry 3 (the model's choice). -/
def Obligations.StartGeneration : Prop :=
  ∀ s : State,
      (flag s.b.cr1 0 = true ∧ flag s.b.cr1 8 = true ∧ s.b.bmode = .idle ∧ flag s.b.sr2 1 = false →
        runTurn .bcStart s = .next { s with
          trace := s.trace ++ [.start],
          b := { s.b with
            sr1 := (s.b.sr1 ||| 0x0001#16) &&& 0xFF7B#16, sr2 := s.b.sr2 ||| 0x0003#16, cr1 := s.b.cr1 &&& 0xFEFF#16,
            sr1SeenSB := false, bmode := .mSb } }) ∧
      (¬ (flag s.b.cr1 0 = true ∧ flag s.b.cr1 8 = true ∧ s.b.bmode = .idle ∧ flag s.b.sr2 1 = false) →
        runTurn .bcStart s = .next s)

/-- The address step with the slave's answer, and the loss of arbitration in the address phase. Rules R171 and R172. That a turn whose guard does not hold changes nothing is the stutter of log entry 3 (the model's choice). -/
def Obligations.AddressPhase : Prop :=
  ∀ s : State,
      (s.b.bmode = .mAddr →
        runTurn (.bcAddr .ack) s = .next { s with
          trace := s.trace ++ [.addr (s.b.dr.extractLsb' 0 8), .ack],
          b := { s.b with
            sr1 := s.b.sr1 ||| 0x0002#16, sr1SeenADDR := false,
            sr2 := if flag s.b.dr 0 then s.b.sr2 &&& 0xFFFB#16 else s.b.sr2 ||| 0x0004#16,
            bmode := if flag s.b.dr 0 then .mRx else .mTx } } ∧
        runTurn (.bcAddr .nack) s = .next { s with
          trace := s.trace ++ [.addr (s.b.dr.extractLsb' 0 8), .nack],
          b := { s.b with sr1 := s.b.sr1 ||| 0x0400#16, bmode := .mNacked } }) ∧
      (s.b.bmode = .mAddr → s.cfg.multiMaster = true →
        runTurn .bcAddrArb s = .next { s with
          trace := s.trace ++ [.arbLost],
          b := { s.b with
            sr1 := s.b.sr1 ||| 0x0200#16, sr2 := s.b.sr2 &&& 0xFFFA#16, otherBusy := true, bmode := .lost } }) ∧
      (s.b.bmode ≠ .mAddr → ∀ ans, runTurn (.bcAddr ans) s = .next s) ∧
      (s.b.bmode ≠ .mAddr ∨ s.cfg.multiMaster = false → runTurn .bcAddrArb s = .next s)

/-- The transmit step: ACK, NACK or, with another master, the loss of arbitration. Rule R173. That a turn whose guard does not hold changes nothing is the stutter of log entry 3 (the model's choice). That the draw ARB is not taken without another master is the model's reading (log entry 22). -/
def Obligations.TransmittedDataByte : Prop :=
  ∀ s : State,
      (s.b.bmode = .mTx → s.b.txPending = true →
        runTurn (.bcTx .ack) s = .next { s with
          trace := s.trace ++ [.data (s.b.dr.extractLsb' 0 8), .ack],
          b := { s.b with txPending := false, sr1 := s.b.sr1 ||| 0x0084#16 } } ∧
        runTurn (.bcTx .nack) s = .next { s with
          trace := s.trace ++ [.data (s.b.dr.extractLsb' 0 8), .nack],
          b := { s.b with txPending := false, sr1 := s.b.sr1 ||| 0x0400#16, bmode := .mNacked } } ∧
        (s.cfg.multiMaster = true →
          runTurn (.bcTx .arb) s = .next { s with
            trace := s.trace ++ [.arbLost],
            b := { s.b with
              txPending := false, sr1 := s.b.sr1 ||| 0x0200#16, sr2 := s.b.sr2 &&& 0xFFFA#16, otherBusy := true,
              bmode := .lost } })) ∧
      (s.b.bmode ≠ .mTx ∨ s.b.txPending = false → ∀ d, runTurn (.bcTx d) s = .next s) ∧
      (s.cfg.multiMaster = false → runTurn (.bcTx .arb) s = .next s)

/-- The receive step: the master's answer, and a requested STOP in the same step. Rule R174 with the window of rule R151. That a turn whose guard does not hold changes nothing is the stutter of log entry 3 (the model's choice). -/
def Obligations.ReceivedDataByte : Prop :=
  ∀ (d : Byte) (s : State),
      (s.b.bmode = .mRx ∧ flag s.b.sr1 1 = false ∧ flag s.b.sr1 6 = false ∧
          ¬ (s.cfg.lastByteWindowMet = true ∧ s.m.busy = true ∧ s.m.upc = 30#6) →
        (flag s.b.cr1 9 = true →
          runTurn (.bcRx d) s = .next { s with
            trace := s.trace ++ [.data d, if flag s.b.cr1 10 then .ack else .nack, .stop],
            b := droppedBc { s.b with
              dr := d.setWidth 16, sr1 := s.b.sr1 ||| 0x0040#16, cr1 := s.b.cr1 &&& 0xFDFF#16 } }) ∧
        (flag s.b.cr1 9 = false → flag s.b.cr1 10 = true →
          runTurn (.bcRx d) s = .next { s with
            trace := s.trace ++ [.data d, .ack],
            b := { s.b with dr := d.setWidth 16, sr1 := s.b.sr1 ||| 0x0040#16 } }) ∧
        (flag s.b.cr1 9 = false → flag s.b.cr1 10 = false →
          runTurn (.bcRx d) s = .next { s with
            trace := s.trace ++ [.data d, .nack],
            b := { s.b with dr := d.setWidth 16, sr1 := s.b.sr1 ||| 0x0040#16, bmode := .mRxEnd } })) ∧
      (¬ (s.b.bmode = .mRx ∧ flag s.b.sr1 1 = false ∧ flag s.b.sr1 6 = false ∧
          ¬ (s.cfg.lastByteWindowMet = true ∧ s.m.busy = true ∧ s.m.upc = 30#6)) →
        runTurn (.bcRx d) s = .next s)

/-- STOP while master and stalled is emitted and drops mastership; STOP while not master only clears the bit. Rules R175 and R176. That a turn whose guard does not hold changes nothing is the stutter of log entry 3 (the model's choice). -/
def Obligations.StopSteps : Prop :=
  ∀ s : State,
      (flag s.b.cr1 9 = true ∧
          (s.b.bmode = .mSb ∨ (s.b.bmode = .mTx ∧ s.b.txPending = false) ∨
            (s.b.bmode = .mRx ∧ (flag s.b.sr1 1 = true ∨ flag s.b.sr1 6 = true)) ∨ s.b.bmode = .mNacked ∨
            s.b.bmode = .mRxEnd) →
        runTurn .bcStop s = .next { s with
          trace := s.trace ++ [.stop], b := droppedBc { s.b with cr1 := s.b.cr1 &&& 0xFDFF#16 } }) ∧
      (¬ (flag s.b.cr1 9 = true ∧
          (s.b.bmode = .mSb ∨ (s.b.bmode = .mTx ∧ s.b.txPending = false) ∨
            (s.b.bmode = .mRx ∧ (flag s.b.sr1 1 = true ∨ flag s.b.sr1 6 = true)) ∨ s.b.bmode = .mNacked ∨
            s.b.bmode = .mRxEnd)) →
        runTurn .bcStop s = .next s) ∧
      (flag s.b.cr1 9 = true ∧ (s.b.bmode = .idle ∨ s.b.bmode = .lost) →
        runTurn .bcStopIdle s = .next { s with b := { s.b with cr1 := s.b.cr1 &&& 0xFDFF#16 } }) ∧
      (¬ (flag s.b.cr1 9 = true ∧ (s.b.bmode = .idle ∨ s.b.bmode = .lost)) → runTurn .bcStopIdle s = .next s)

/-- Another master claims an idle bus and releases it, with no trace event. Rules R177 and R178. That a turn whose guard does not hold changes nothing is the stutter of log entry 3 (the model's choice). -/
def Obligations.OtherMasterClaimsAndReleases : Prop :=
  ∀ s : State,
      (s.cfg.multiMaster = true ∧ s.b.bmode = .idle ∧ flag s.b.sr2 1 = false →
        runTurn .envClaim s = .next { s with b := { s.b with otherBusy := true, sr2 := s.b.sr2 ||| 0x0002#16 } }) ∧
      (¬ (s.cfg.multiMaster = true ∧ s.b.bmode = .idle ∧ flag s.b.sr2 1 = false) →
        runTurn .envClaim s = .next s) ∧
      (s.b.otherBusy = true ∧ (s.b.bmode = .idle ∨ s.b.bmode = .lost) →
        runTurn .envRelease s = .next { s with b := { s.b with
          otherBusy := false, sr2 := s.b.sr2 &&& 0xFFFD#16, bmode := .idle } }) ∧
      (¬ (s.b.otherBusy = true ∧ (s.b.bmode = .idle ∨ s.b.bmode = .lost)) → runTurn .envRelease s = .next s)

/-- A host byte write stores in BUF, a host byte read returns it or faults when unwritten; both are refused while busy. Rules R53, R54 and R56. That the returned value is kept in the field hostData is the model's own (log entry 8). -/
def Obligations.HostWritesAndReadsBuf : Prop :=
  ∀ (i : Nat) (s : State), i < 256 →
      (∀ v : Word, s.m.busy = false → ∃ mem : Memory, mem.read i = some (v.extractLsb' 0 8) ∧
        (∀ j, j ≠ i → mem.read j = s.buf.read j) ∧
        hostAccess (.write .byte (0x100 + i) v) s = .next { s with buf := mem }) ∧
      (∀ v, s.m.busy = false → s.buf.read i = some v →
        hostAccess (.read .byte (0x100 + i)) s = .next { s with hostData := some (.byte v) }) ∧
      (s.m.busy = false → s.buf.read i = none →
        hostAccess (.read .byte (0x100 + i)) s =
          .next { s with faults := { s.faults with unwrittenBuf := true } }) ∧
      (s.m.busy = true →
        hostAccess (.read .byte (0x100 + i)) s = .next { s with refusalMark := true } ∧
        ∀ v, hostAccess (.write .byte (0x100 + i) v) s = .next { s with refusalMark := true })

/-- A host word read returns 0 for CMD and the images of STATUS and CFGOUT, at any time and without side effects. Rules R27, R28, R51 and R55, the images given as sums of their fields. That the returned value is kept in the field hostData is the model's own (log entry 8). -/
def Obligations.HostReadsTheWordRegisters : Prop :=
  ∀ s : State,
      hostAccess (.read .word 0x000) s = .next { s with hostData := some (.word 0x00000000#32) } ∧
      (∃ v : Word, v.toNat = s.m.busy.toNat + 2 * s.m.nostop.toNat + 2 ^ 4 * s.m.result.code.toNat +
          2 ^ 8 * s.m.errupc.toNat + 2 ^ 16 * s.m.idx.toNat ∧
        hostAccess (.read .word 0x004) s = .next { s with hostData := some (.word v) }) ∧
      ∃ v : Word, v.toNat = s.m.freq.toNat + 2 ^ 8 * s.m.trise.toNat + 2 ^ 16 * s.m.ccr.toNat +
          2 ^ 28 * s.m.fs.toNat + 2 ^ 29 * s.m.dutybit.toNat + 2 ^ 31 * s.m.cfgvalid.toNat ∧
        hostAccess (.read .word 0x008) s = .next { s with hostData := some (.word v) }

/-- Unmapped, wrong-width and misaligned accesses and writes of STATUS and CFGOUT only set the refusal mark. Rule R56; the items about a running command are in the statements on CMD and BUF. -/
def Obligations.HostAccessesThatAreRefused : Prop :=
  ∀ (w : Width) (off : Nat) (v : Word) (s : State),
      ((0x00C ≤ off ∧ off < 0x100) ∨ 0x200 ≤ off ∨ (off < 0x00C ∧ (w ≠ .word ∨ off % 4 ≠ 0)) ∨
          (0x100 ≤ off ∧ off < 0x200 ∧ w ≠ .byte) →
        hostAccess (.read w off) s = .next { s with refusalMark := true } ∧
        hostAccess (.write w off v) s = .next { s with refusalMark := true }) ∧
      (off = 0x004 ∨ off = 0x008 → hostAccess (.write w off v) s = .next { s with refusalMark := true })

/-- The caller's init, write and read expand to BUF writes, one CMD write and a wait; an address or length out of range issues nothing. Rules R91 and R92, the descriptor given as a sum of its fields. That a call is a list of host steps ending in a wait that names it is the model's form (log entry 16). -/
def Obligations.CallsExpandToHostAccesses : Prop :=
  (∀ (clk : Nat) (mode : BusMode) (duty : Duty),
      ∃ w : Word, w.toNat = 1 + 4 * (if mode = .fast then 1 else 0) + 8 * (if duty = .d169 then 1 else 0) +
          16 * (clk % 2 ^ 28) ∧
        initCall clk mode duty = [.access (.write .word 0x000 w), .wait (some .init)]) ∧
    (∀ (addr : Nat) (payload : List Byte),
      (addr ≤ 127 ∧ 1 ≤ payload.length ∧ payload.length ≤ 256 →
        ∃ w : Word, w.toNat = 2 + 2 ^ 8 * addr + 2 ^ 16 * (payload.length - 1) ∧
          writeCall addr payload =
            some (payload.mapIdx (fun i v => .access (.write .byte (0x100 + i) (v.setWidth 32))) ++
              [.access (.write .word 0x000 w), .wait (some .write)])) ∧
      (127 < addr ∨ payload.length = 0 ∨ 256 < payload.length → writeCall addr payload = none)) ∧
    ∀ addr n : Nat,
      (addr ≤ 127 ∧ 1 ≤ n ∧ n ≤ 256 →
        ∃ w : Word, w.toNat = 3 + 2 ^ 8 * addr + 2 ^ 16 * (n - 1) ∧
          readCall addr n = some [.access (.write .word 0x000 w), .wait (some (.read n))]) ∧
      (127 < addr ∨ n = 0 ∨ 256 < n → readCall addr n = none)

/-- What every micro-operation leaves unchanged: the frame of all 25, with the exceptions their rules name. The frame of every micro-operation (rules R21, R22, R24, R26, R44, R70, R126, R207). -/
def Obligations.MicroOpsChangeOnlyTheirOwn : Prop :=
  ∀ (i : Instr) (s t : State), isMicro i = true → exec i s = .next t →
      t.rom = s.rom ∧ t.cfg = s.cfg ∧ t.trace = s.trace ∧ t.program = s.program ∧ t.hostData = s.hostData ∧
      t.callResult = s.callResult ∧ t.callerBuffer = s.callerBuffer ∧
      t.schedule = s.schedule ∧ t.turnsDrawn = s.turnsDrawn ∧
      t.m.op = s.m.op ∧ t.m.addr = s.m.addr ∧ t.m.dir = s.m.dir ∧ t.m.nm1 = s.m.nm1 ∧ t.m.clk = s.m.clk ∧
      t.m.mode = s.m.mode ∧ t.m.duty = s.m.duty ∧
      t.b.oar1 = s.b.oar1 ∧ t.b.oar2 = s.b.oar2 ∧ t.b.otherBusy = s.b.otherBusy ∧
      ((∀ q a, i ≠ .tcuEval q a) → t.m.freq = s.m.freq ∧ t.m.trise = s.m.trise ∧ t.m.ccr = s.m.ccr ∧
        t.m.fs = s.m.fs ∧ t.m.dutybit = s.m.dutybit ∧ t.m.cfgvalid = s.m.cfgvalid) ∧
      ((∀ q a, i ≠ .rxData q a) → t.buf = s.buf) ∧
      (∀ j, j ≠ s.m.idx.toNat → t.buf.read j = s.buf.read j) ∧
      ((∀ q a, i ≠ .rxData q a) → (∀ q a, i ≠ .pollBtf q a) → t.m.idx = s.m.idx) ∧
      ((∀ q a, i ≠ .wrFreq q a) → t.b.cr2 = s.b.cr2) ∧ ((∀ q a, i ≠ .wrCcr q a) → t.b.ccr = s.b.ccr) ∧
      ((∀ q a, i ≠ .wrTrise q a) → t.b.trise = s.b.trise) ∧ ((∀ q a, i ≠ .setOpts q a) → t.b.fltr = s.b.fltr) ∧
      ((∀ q a, i ≠ .txAddr q a) → (∀ q a, i ≠ .txData q a) → t.b.dr = s.b.dr) ∧
      ((∀ q a, i ≠ .peOff q a) → (∀ q a, i ≠ .selI2c q a) → (∀ q a, i ≠ .setOpts q a) → (∀ q a, i ≠ .peOn q a) →
        (∀ q a, i ≠ .ackOn q a) → (∀ q a, i ≠ .genStart q a) → (∀ q a, i ≠ .genStop q a) →
        (∀ q a, i ≠ .nackStop q a) → (∀ q a, i ≠ .abort q a) →
        t.b.cr1 = s.b.cr1 ∧ t.refusalMark = s.refusalMark ∧ ((∀ q a, i ≠ .txData q a) → t.faults = s.faults)) ∧
      ((∀ q a, i ≠ .done q a) → (∀ q a, i ≠ .tcuEval q a) → (∀ q a, i ≠ .abort q a) →
        t.m.result = s.m.result ∧ t.m.nostop = s.m.nostop) ∧
      FlagFrame i s.b t.b ∧
      ((∀ q a, i ≠ .done q a) → (∀ q a, i ≠ .pollMb q a) → (∀ q a, i ≠ .genStop q a) → (∀ q a, i ≠ .nackStop q a) →
        (∀ q a, i ≠ .abort q a) → t.m.armed = s.m.armed) ∧
      (isPoll i = false → (∀ q a, i ≠ .abort q a) → t.m.err = s.m.err) ∧
      ((∀ q a, i ≠ .abort q a) → t.m.aph = s.m.aph) ∧
      (isPoll i = false → (∀ q a, i ≠ .done q a) → (∀ q a, i ≠ .tcuEval q a) → t.m.errupc = s.m.errupc) ∧
      (t.m.busy = true → s.m.busy = true)

/-- No step of the bus controller or the environment changes an MTE register, BUF, CR2, CCR, TRISE or FLTR. Rule R180. -/
def Obligations.BusStepsLeaveTheMteAlone : Prop :=
  ∀ (t : Turn) (s : State), t ≠ .host → t ≠ .mte →
      ∃ u, runTurn t s = .next u ∧ u.m = s.m ∧ u.buf = s.buf ∧ u.rom = s.rom ∧ u.cfg = s.cfg ∧ u.faults = s.faults ∧
        u.refusalMark = s.refusalMark ∧ u.program = s.program ∧ u.hostData = s.hostData ∧
        u.callResult = s.callResult ∧ u.callerBuffer = s.callerBuffer ∧
        u.b.cr2 = s.b.cr2 ∧ u.b.oar1 = s.b.oar1 ∧ u.b.oar2 = s.b.oar2 ∧ u.b.ccr = s.b.ccr ∧ u.b.trise = s.b.trise ∧
        u.b.fltr = s.b.fltr ∧ (u.b.cr1 = s.b.cr1 ∨ u.b.cr1 = s.b.cr1 &&& 0xFEFF#16 ∨ u.b.cr1 = s.b.cr1 &&& 0xFDFF#16)

/-- The host's turn answers a next state and leaves the controller, the trace and the ROM alone. Rules R56, R66 and R239: no host access reaches the controller or stops a command. What becomes of the host program (rules R61 and R91: it stays for a wait, loses its first step, or gets a read's fetches in its place) is in the model's own form (log entry 16). -/
def Obligations.HostNeverReachesTheController : Prop :=
  ∀ s : State, ∃ u, runTurn .host s = .next u ∧ u.b = s.b ∧ u.trace = s.trace ∧ u.rom = s.rom ∧ u.cfg = s.cfg ∧
      (u.program = s.program ∨ u.program = s.program.tail ∨
        ∃ n, s.program.head? = some (.wait (some (.read n))) ∧
          u.program = (List.range n).map HostStep.fetch ++ s.program.tail) ∧ (s.m.busy = true → u.m = s.m ∧ u.buf = s.buf)

/-- The invariants of the bus controller hold at launch and every step of any agent keeps them. Rule R181, for every state that meets it. The clause on SB is this statement's own strengthening, which makes it inductive. -/
def Obligations.BusInvariantHoldsAlways : Prop :=
  (∀ c p q, BusInv (launch c p q)) ∧ ∀ s t : State, BusInv s → step s = .next t → BusInv t

/-- The micro-pc stays in the ROM, m.idx counts as the ROM place says, and errors live in ABORT only: every step keeps it. Rules R20 and R22 to R24 as one inductive invariant. -/
def Obligations.MteInvariantHoldsAlways : Prop :=
  (∀ c p q, MteInv (launch c p q)) ∧ ∀ s t : State, MteInv s → step s = .next t → MteInv t

/-- Reserved bits, unused flags, the interrupt and DMA enables and OAR1/OAR2 stay 0 through every step. Rules R31 to R37, R42, R213 and 93_implementation_defined.md items 7, 9 and 10. -/
def Obligations.QuietBitsStayQuiet : Prop :=
  ∀ s t : State, QuietBits s → step s = .next t → QuietBits t

/-- Every step keeps the canonical form of BUF and of the caller's buffer. The form of BUF is the model's own (log entry 2), and the caller's buffer is a field of the model's own (log entry 16); the indexes are rule R52's. -/
def Obligations.BufStaysCanonical : Prop :=
  ∀ s t : State, step s = .next t →
      (Memory.wf s.buf = true → Memory.wf t.buf = true) ∧
      (Memory.wf s.callerBuffer = true → Memory.wf t.callerBuffer = true)

/-- Faults and the refusal mark are never cleared, the trace only grows, the ROM and the parameters never change. Rules R47, R48 and R70. -/
def Obligations.StickyAndFixed : Prop :=
  ∀ s t : State, step s = .next t →
      s.trace <+: t.trace ∧ (s.refusalMark = true → t.refusalMark = true) ∧
      (s.faults.unwrittenBuf = true → t.faults.unwrittenBuf = true) ∧
      (s.faults.abortWithoutStop = true → t.faults.abortWithoutStop = true) ∧ t.rom = s.rom ∧ t.cfg = s.cfg

/-- Timing fields and filter options are written only while CR1.PE = 0. Rule R125, with the invariant that carries it. -/
def Obligations.TimingWritesOnlyWhileDisabled : Prop :=
  ∀ s t : State, MteInv s → InitDisabled s → step s = .next t →
      InitDisabled t ∧
      (t.b.cr2 ≠ s.b.cr2 ∨ t.b.ccr ≠ s.b.ccr ∨ t.b.trise ≠ s.b.trise ∨ t.b.fltr ≠ s.b.fltr →
        flag s.b.cr1 0 = false) ∧
      ((nextTurn s).1 = .mte → s.m.busy = true → 3 ≤ s.m.upc.toNat → s.m.upc.toNat ≤ 6 → flag s.b.cr1 0 = false)

/-- WRITE and READ never change CR2, CCR, TRISE or FLTR, and CR1 only in START, STOP and ACK. Rule R126, its sentence on WRITE and READ. -/
def Obligations.TransfersKeepTheConfiguration : Prop :=
  ∀ s t : State, MteInv s → QuietBits s → s.m.busy = true → s.m.op = .write ∨ s.m.op = .read → step s = .next t →
      t.b.cr2 = s.b.cr2 ∧ t.b.ccr = s.b.ccr ∧ t.b.trise = s.b.trise ∧ t.b.fltr = s.b.fltr ∧
      t.b.cr1 &&& 0xF8FF#16 = s.b.cr1 &&& 0xF8FF#16

/-- A WRITE or READ that ends on stop-sent, by ABORT or by DONE, leaves the block not master and no START pending. Rule R205, first part, and rule R237's sentence on a WRITE or READ that ends with NOSTOP = 0. Acceptance with the SB of a given-up ABORT is left out, where that sentence and the steps of rules R138 and R170 part (log entry 24). -/
def Obligations.CommandsThatEndOnStopSentReleaseTheBus : Prop :=
  (∀ c p q, AbortReleases (launch c p q) ∧ TransferReleases (launch c p q)) ∧
    (∀ s t : State, MteInv s → AbortReleases s → step s = .next t → AbortReleases t) ∧
    (∀ s t : State, MteInv s → AbortReleases s → ¬ Faulted s → (nextTurn s).1 = .mte → s.m.aph = true →
      flag s.b.cr1 9 = false → step s = .next t →
      t.m.busy = false ∧ t.m.nostop = s.m.nostop ∧ (t.b.bmode = .idle ∨ t.b.bmode = .lost) ∧
        flag t.b.cr1 8 = false) ∧
    (∀ s t : State, MteInv s → BusInv s → TransferReleases s → step s = .next t →
      (s.m.busy = true ∨ t.m.busy = false ∨ t.m.op = .init ∨ flag s.b.cr1 8 = false ∧ s.b.bmode ≠ .mSb) →
      TransferReleases t) ∧
    ∀ s t : State, MteInv s → BusInv s → TransferReleases s → s.m.op = .write ∨ s.m.op = .read → CommandEnds s t →
      t.m.result = .ok →
      t.m.nostop = s.m.nostop ∧ (t.b.bmode = .idle ∨ t.b.bmode = .lost) ∧ flag t.b.cr1 8 = false

/-- Unless a WRITE or READ is accepted in M_SB, each that ends with NOSTOP = 0 leaves the block not master and no START pending. Rule R237: GEN_START waits at POLL_SB until the controller is IDLE and has sent START, and a WRITE or READ that ends with NOSTOP = 0 has released the bus. Acceptance in M_SB, after an ABORT that gave up there, is left out: there these sentences and the steps of rules R134, R138 and R170 part, and the model follows the steps (log entry 24). -/
def Obligations.EveryCommandReleasesTheBusUnlessAcceptedInMSb : Prop :=
  (∀ c p q, ReleaseInv (launch c p q)) ∧
    (∀ s t : State, MteInv s → BusInv s → ReleaseInv s → step s = .next t →
      ¬ (s.m.busy = false ∧ t.m.busy = true ∧ t.m.op ≠ .init ∧ s.b.bmode = .mSb) → ReleaseInv t) ∧
    (∀ s t : State, MteInv s → BusInv s → ReleaseInv s → s.m.op = .write ∨ s.m.op = .read → CommandEnds s t →
      t.m.nostop = false → (t.b.bmode = .idle ∨ t.b.bmode = .lost) ∧ flag t.b.cr1 8 = false) ∧
    (∀ s t : State, MteInv s → BusInv s → s.m.busy = true → s.m.upc = 10#6 ∨ s.m.upc = 23#6 → s.b.bmode ≠ .mSb →
      (nextTurn s).1 = .mte → step s = .next t → t.m.upc = s.m.upc ∨ t.m.upc = 35#6 ∧ t.m.err = .timeout) ∧
    ∀ s t : State, step s = .next t → s.b.bmode ≠ .mSb → t.b.bmode = .mSb →
      s.b.bmode = .idle ∧ flag s.b.sr2 1 = false ∧ t.trace = s.trace ++ [.start]

/-- A command ends only by DONE, by ABORT or by a rejecting TCU_EVAL. Rule R239, and rule R19's list of what clears m.busy. -/
def Obligations.CommandsEndOnlyAtTheirEnds : Prop :=
  ∀ s t : State, MteInv s → s.m.busy = true → step s = .next t → t.m.busy = false →
      (nextTurn s).1 = .mte ∧
      ((s.m.upc = 8#6 ∨ s.m.upc = 20#6 ∨ s.m.upc = 34#6) ∧ t.m.result = .ok ∨
       s.m.upc = 35#6 ∧ s.m.aph = true ∧ t.m.result = s.m.err.result ∧ t.m.errupc = s.m.errupc ∨
       s.m.upc = 0#6 ∧ tcu s.m.clk.toNat s.m.mode s.m.duty = none ∧ t.m.result = .configError ∧ t.b = s.b)

/-- A WRITE that returns OK has emitted exactly START, its address, its bytes and STOP. Rule R153, for every schedule and every environment. Its premise that the bus side is at rest at acceptance is the model's own (log entry 17), no duty of the host. -/
def Obligations.WriteThatReturnsOkEmitsItsTrace : Prop :=
  ∀ (s0 s t : State) (k : Nat), FreshTransfer s0 → s0.m.op = .write → s0.m.upc = 9#6 → BusyRun s0 k s →
      step s = .next t → t.m.busy = false → t.m.result = .ok →
      ∃ bytes, BufHolds s0.buf (s0.m.nm1.toNat + 1) bytes ∧ t.trace = s0.trace ++ writeTrace s0.m.addr bytes

/-- A READ that returns OK has ACKed N - 1 bytes and NACKed the last, and BUF holds the bytes. Rule R152 and the trace of rule R131, under the host duty of rule R236 (no stale byte). Its premise that the bus side is at rest at acceptance is the model's own (log entry 17), no duty of the host. -/
def Obligations.ReadThatReturnsOkNacksOnlyTheLastByte : Prop :=
  ∀ (s0 s t : State) (k : Nat), FreshTransfer s0 → s0.m.op = .read → s0.m.upc = 21#6 →
      s0.cfg.lastByteWindowMet = true → flag s0.b.sr1 6 = false → BusyRun s0 k s →
      step s = .next t → t.m.busy = false → t.m.result = .ok →
      ∃ bytes, BufHolds t.buf (s0.m.nm1.toNat + 1) bytes ∧ t.trace = s0.trace ++ readTrace s0.m.addr bytes

/-- A WRITE that returns OK with an old STOP pending at its acceptance emits its own START to STOP last. Rule R153 in the form that rule R237 allows: a WRITE issued while the STOP of a given-up ABORT is still pending. Acceptance in M_SB is left out (log entries 17 and 24). -/
def Obligations.WriteWithAnOldStopPendingEmitsItsTrace : Prop :=
  ∀ (s0 s t : State) (k : Nat), AcceptedTransfer s0 → s0.m.op = .write → s0.m.upc = 9#6 → BusyRun s0 k s →
      step s = .next t → t.m.busy = false → t.m.result = .ok →
      ∃ old bytes, BufHolds s0.buf (s0.m.nm1.toNat + 1) bytes ∧ Event.start ∉ old ∧
        t.trace = s0.trace ++ old ++ writeTrace s0.m.addr bytes

/-- With a poll budget of 1 or more, every command ends within its bound of MTE steps, whatever the other agents do. Rule R241: the count of MTE turns of any run through running states stays below the bound. -/
def Obligations.CommandsEndWithinTheStepBound : Prop :=
  ∀ (s0 s : State) (k : Nat), MteInv s0 → s0.cfg.pollBudget ≠ 0#16 → flag s0.b.cr1 15 = false →
      (s0.m.op = .init ∧ s0.m.upc = 0#6 ∨ s0.m.op = .write ∧ s0.m.upc = 9#6 ∨ s0.m.op = .read ∧ s0.m.upc = 21#6) →
      BusyRun s0 k s → ¬ Faulted s →
      k < stepBound s0.m.op (s0.m.nm1.toNat + 1) s0.cfg.pollBudget.toNat

/-- Each MTE step of a running command lowers the count of steps it can still take; no other step raises it. The ranking function behind rule R241. -/
def Obligations.EveryMteStepUsesUpTheBound : Prop :=
  ∀ s t : State, MteInv s → s.cfg.pollBudget ≠ 0#16 → s.m.busy = true → step s = .next t → t.m.busy = true →
      ((nextTurn s).1 = .mte → t.faults = s.faults → (t.refusalMark = true → s.refusalMark = true) →
        flag s.b.cr1 15 = false →
        stepsLeft t.m s.cfg.pollBudget.toNat < stepsLeft s.m s.cfg.pollBudget.toNat) ∧
      ((nextTurn s).1 ≠ .mte → t.m = s.m)
end

