-- ==== Sys2Proof/Laws/Bits.lean ====
section
/-! SUPPORT. One bit of a register: reading after setting, and the setting of a bit as a mask. -/

namespace Sys2Proof.Machine

/-- Reading a bit after setting one. -/
theorem flag_setFlag (w : Half) (n k : Nat) (v : Bool) (hn : n < 16) :
    flag (setFlag w n v) k = if k = n then v else flag w k := by
  by_cases hk : k = n
  · subst hk
    cases v <;> simp [flag, setFlag, hn]
  · by_cases hl : k < 16
    · have hk' : ¬ n = k := fun h => hk h.symm
      cases v <;> simp [flag, setFlag, hk, hl]
    · have hz : ∀ x : Half, x.getLsbD k = false := fun x => BitVec.getLsbD_of_ge x k (by omega)
      simp only [flag, hz]
      simp [hk]

/-- The bit that was set. -/
@[simp] theorem flag_setFlag_same (w : Half) (n : Nat) (v : Bool) (hn : n < 16 := by decide) :
    flag (setFlag w n v) n = v := by
  simp [flag_setFlag w n n v hn]

/-- Any other bit. -/
theorem flag_setFlag_ne (w : Half) (n k : Nat) (v : Bool) (hn : n < 16) (hk : k ≠ n) :
    flag (setFlag w n v) k = flag w k := by
  simp [flag_setFlag w n k v hn, hk]

/-- A bit of a conjunction. -/
theorem flag_and (w v : Half) (k : Nat) : flag (w &&& v) k = (flag w k && flag v k) := by
  simp [flag]

/-- A bit of a disjunction. -/
theorem flag_or (w v : Half) (k : Nat) : flag (w ||| v) k = (flag w k || flag v k) := by
  simp [flag]

/-- No bit of 0 is set. -/
@[simp] theorem flag_zero (k : Nat) : flag 0#16 k = false := by
  simp [flag]

/-- Setting a bit to 1 is a disjunction with its mask. -/
theorem setFlag_true (w : Half) (n : Nat) : setFlag w n true = w ||| BitVec.twoPow 16 n := rfl

/-- Setting a bit to 0 is a conjunction with the complement of its mask. -/
theorem setFlag_false (w : Half) (n : Nat) : setFlag w n false = w &&& ~~~ BitVec.twoPow 16 n := rfl

/-- A register is known by its bits. -/
theorem ext_flag (w v : Half) (h : ∀ k, k < 16 → flag w k = flag v k) : w = v :=
  BitVec.eq_of_getLsbD_eq fun k hk => h k hk

/-- Setting a bit to the value it has changes nothing. -/
theorem setFlag_self (w : Half) (n : Nat) (hn : n < 16) : setFlag w n (flag w n) = w := by
  apply ext_flag
  intro k _
  rw [flag_setFlag w n k _ hn]
  split
  · next h => rw [h]
  · rfl

/-- The byte a 16-bit register value was widened from. -/
@[simp] theorem lowByte_zext16 (v : Byte) : lowByte (zext16 v) = v := by
  simp [lowByte, zext16]

end Sys2Proof.Machine
end

