-- ==== Sys2Proof/Laws/Memory.lean ====
section
/-! SUPPORT. BUF: a read after a write, and the canonical form (rule R52). -/

namespace Sys2Proof.Machine

/-- The byte written is read back. -/
@[simp] theorem Memory.read_write_same (mem : Memory) (i : Nat) (v : Byte) :
    Memory.read (Memory.write mem i v) i = some v := by
  induction mem with
  | nil => simp [Memory.write, Memory.read]
  | cons c rest ih =>
    obtain ⟨a, w⟩ := c
    simp only [Memory.write]
    split
    · simp [Memory.read]
    · split
      · simp [Memory.read]
      · next h => simp [Memory.read, h, ih]

/-- Every other byte reads as before, in a memory of any form. -/
theorem Memory.read_write_ne (mem : Memory) (i j : Nat) (v : Byte) (h : j ≠ i) :
    Memory.read (Memory.write mem i v) j = Memory.read mem j := by
  induction mem with
  | nil => simp [Memory.write, Memory.read, h]
  | cons c rest ih =>
    obtain ⟨a, w⟩ := c
    simp only [Memory.write]
    split
    · simp [Memory.read, h]
    · split
      · next ha => subst ha; simp [Memory.read, h]
      · simp only [Memory.read, ih]

/-- A write keeps the canonical form above a bound. -/
theorem Memory.wfFrom_write (mem : Memory) (lo i : Nat) (v : Byte) (hlo : lo ≤ i) (hi : i < bufDepth)
    (h : Memory.wfFrom lo mem = true) : Memory.wfFrom lo (Memory.write mem i v) = true := by
  induction mem generalizing lo with
  | nil => simp [Memory.write, Memory.wfFrom, hlo, hi]
  | cons c rest ih =>
    obtain ⟨a, w⟩ := c
    simp only [Memory.wfFrom, Bool.and_eq_true, decide_eq_true_eq] at h
    obtain ⟨⟨h1, h2⟩, h3⟩ := h
    simp only [Memory.write]
    split
    · next hia =>
      simp only [Memory.wfFrom, Bool.and_eq_true, decide_eq_true_eq]
      exact ⟨⟨hlo, hi⟩, ⟨by omega, h2⟩, h3⟩
    · split
      · next hia hie =>
        subst hie
        simp only [Memory.wfFrom, Bool.and_eq_true, decide_eq_true_eq]
        exact ⟨⟨h1, h2⟩, h3⟩
      · next hia hie =>
        simp only [Memory.wfFrom, Bool.and_eq_true, decide_eq_true_eq]
        exact ⟨⟨h1, h2⟩, ih (a + 1) (by omega) h3⟩

/-- A write to a byte of BUF keeps the canonical form. -/
theorem Memory.wf_write (mem : Memory) (i : Nat) (v : Byte) (hi : i < bufDepth) (h : Memory.wf mem = true) :
    Memory.wf (Memory.write mem i v) = true :=
  Memory.wfFrom_write mem 0 i v (Nat.zero_le i) hi h

/-- The empty BUF of the reset state is in canonical form. -/
theorem Memory.wf_nil : Memory.wf [] = true := rfl

end Sys2Proof.Machine
end

