-- ==== Sys2Proof/Laws/State.lean ====
section
/-! SUPPORT. One lemma per field per update of the state, so that no later proof unfolds a record update. -/

namespace Sys2Proof.Machine

/-! ### Whole-field updates -/

@[simp] theorem State.withM_m (s : State) (m : Mte) : (s.withM m).m = m := rfl
@[simp] theorem State.withM_b (s : State) (m : Mte) : (s.withM m).b = s.b := rfl
@[simp] theorem State.withM_buf (s : State) (m : Mte) : (s.withM m).buf = s.buf := rfl
@[simp] theorem State.withM_rom (s : State) (m : Mte) : (s.withM m).rom = s.rom := rfl
@[simp] theorem State.withM_cfg (s : State) (m : Mte) : (s.withM m).cfg = s.cfg := rfl
@[simp] theorem State.withM_trace (s : State) (m : Mte) : (s.withM m).trace = s.trace := rfl
@[simp] theorem State.withM_faults (s : State) (m : Mte) : (s.withM m).faults = s.faults := rfl
@[simp] theorem State.withM_refusalMark (s : State) (m : Mte) : (s.withM m).refusalMark = s.refusalMark := rfl
@[simp] theorem State.withM_program (s : State) (m : Mte) : (s.withM m).program = s.program := rfl
@[simp] theorem State.withM_hostData (s : State) (m : Mte) : (s.withM m).hostData = s.hostData := rfl
@[simp] theorem State.withM_callResult (s : State) (m : Mte) : (s.withM m).callResult = s.callResult := rfl
@[simp] theorem State.withM_callerBuffer (s : State) (m : Mte) : (s.withM m).callerBuffer = s.callerBuffer := rfl
@[simp] theorem State.withM_schedule (s : State) (m : Mte) : (s.withM m).schedule = s.schedule := rfl
@[simp] theorem State.withM_turnsDrawn (s : State) (m : Mte) : (s.withM m).turnsDrawn = s.turnsDrawn := rfl

@[simp] theorem State.withB_m (s : State) (b : Bc) : (s.withB b).m = s.m := rfl
@[simp] theorem State.withB_b (s : State) (b : Bc) : (s.withB b).b = b := rfl
@[simp] theorem State.withB_buf (s : State) (b : Bc) : (s.withB b).buf = s.buf := rfl
@[simp] theorem State.withB_rom (s : State) (b : Bc) : (s.withB b).rom = s.rom := rfl
@[simp] theorem State.withB_cfg (s : State) (b : Bc) : (s.withB b).cfg = s.cfg := rfl
@[simp] theorem State.withB_trace (s : State) (b : Bc) : (s.withB b).trace = s.trace := rfl
@[simp] theorem State.withB_faults (s : State) (b : Bc) : (s.withB b).faults = s.faults := rfl
@[simp] theorem State.withB_refusalMark (s : State) (b : Bc) : (s.withB b).refusalMark = s.refusalMark := rfl
@[simp] theorem State.withB_program (s : State) (b : Bc) : (s.withB b).program = s.program := rfl
@[simp] theorem State.withB_hostData (s : State) (b : Bc) : (s.withB b).hostData = s.hostData := rfl
@[simp] theorem State.withB_callResult (s : State) (b : Bc) : (s.withB b).callResult = s.callResult := rfl
@[simp] theorem State.withB_callerBuffer (s : State) (b : Bc) : (s.withB b).callerBuffer = s.callerBuffer := rfl
@[simp] theorem State.withB_schedule (s : State) (b : Bc) : (s.withB b).schedule = s.schedule := rfl
@[simp] theorem State.withB_turnsDrawn (s : State) (b : Bc) : (s.withB b).turnsDrawn = s.turnsDrawn := rfl

@[simp] theorem State.withBuf_m (s : State) (mem : Memory) : (s.withBuf mem).m = s.m := rfl
@[simp] theorem State.withBuf_b (s : State) (mem : Memory) : (s.withBuf mem).b = s.b := rfl
@[simp] theorem State.withBuf_buf (s : State) (mem : Memory) : (s.withBuf mem).buf = mem := rfl
@[simp] theorem State.withBuf_rom (s : State) (mem : Memory) : (s.withBuf mem).rom = s.rom := rfl
@[simp] theorem State.withBuf_cfg (s : State) (mem : Memory) : (s.withBuf mem).cfg = s.cfg := rfl
@[simp] theorem State.withBuf_trace (s : State) (mem : Memory) : (s.withBuf mem).trace = s.trace := rfl
@[simp] theorem State.withBuf_faults (s : State) (mem : Memory) : (s.withBuf mem).faults = s.faults := rfl
@[simp] theorem State.withBuf_refusalMark (s : State) (mem : Memory) : (s.withBuf mem).refusalMark = s.refusalMark := rfl
@[simp] theorem State.withBuf_program (s : State) (mem : Memory) : (s.withBuf mem).program = s.program := rfl
@[simp] theorem State.withBuf_hostData (s : State) (mem : Memory) : (s.withBuf mem).hostData = s.hostData := rfl
@[simp] theorem State.withBuf_callResult (s : State) (mem : Memory) : (s.withBuf mem).callResult = s.callResult := rfl
@[simp] theorem State.withBuf_callerBuffer (s : State) (mem : Memory) : (s.withBuf mem).callerBuffer = s.callerBuffer := rfl
@[simp] theorem State.withBuf_schedule (s : State) (mem : Memory) : (s.withBuf mem).schedule = s.schedule := rfl
@[simp] theorem State.withBuf_turnsDrawn (s : State) (mem : Memory) : (s.withBuf mem).turnsDrawn = s.turnsDrawn := rfl

@[simp] theorem State.emit_m (s : State) (ev : Event) : (s.emit ev).m = s.m := rfl
@[simp] theorem State.emit_b (s : State) (ev : Event) : (s.emit ev).b = s.b := rfl
@[simp] theorem State.emit_buf (s : State) (ev : Event) : (s.emit ev).buf = s.buf := rfl
@[simp] theorem State.emit_rom (s : State) (ev : Event) : (s.emit ev).rom = s.rom := rfl
@[simp] theorem State.emit_cfg (s : State) (ev : Event) : (s.emit ev).cfg = s.cfg := rfl
@[simp] theorem State.emit_trace (s : State) (ev : Event) : (s.emit ev).trace = s.trace ++ [ev] := rfl
@[simp] theorem State.emit_faults (s : State) (ev : Event) : (s.emit ev).faults = s.faults := rfl
@[simp] theorem State.emit_refusalMark (s : State) (ev : Event) : (s.emit ev).refusalMark = s.refusalMark := rfl
@[simp] theorem State.emit_program (s : State) (ev : Event) : (s.emit ev).program = s.program := rfl
@[simp] theorem State.emit_hostData (s : State) (ev : Event) : (s.emit ev).hostData = s.hostData := rfl
@[simp] theorem State.emit_callResult (s : State) (ev : Event) : (s.emit ev).callResult = s.callResult := rfl
@[simp] theorem State.emit_callerBuffer (s : State) (ev : Event) : (s.emit ev).callerBuffer = s.callerBuffer := rfl
@[simp] theorem State.emit_schedule (s : State) (ev : Event) : (s.emit ev).schedule = s.schedule := rfl
@[simp] theorem State.emit_turnsDrawn (s : State) (ev : Event) : (s.emit ev).turnsDrawn = s.turnsDrawn := rfl

@[simp] theorem State.markRefusal_m (s : State) : (s.markRefusal).m = s.m := rfl
@[simp] theorem State.markRefusal_b (s : State) : (s.markRefusal).b = s.b := rfl
@[simp] theorem State.markRefusal_buf (s : State) : (s.markRefusal).buf = s.buf := rfl
@[simp] theorem State.markRefusal_rom (s : State) : (s.markRefusal).rom = s.rom := rfl
@[simp] theorem State.markRefusal_cfg (s : State) : (s.markRefusal).cfg = s.cfg := rfl
@[simp] theorem State.markRefusal_trace (s : State) : (s.markRefusal).trace = s.trace := rfl
@[simp] theorem State.markRefusal_faults (s : State) : (s.markRefusal).faults = s.faults := rfl
@[simp] theorem State.markRefusal_refusalMark (s : State) : (s.markRefusal).refusalMark = true := rfl
@[simp] theorem State.markRefusal_program (s : State) : (s.markRefusal).program = s.program := rfl
@[simp] theorem State.markRefusal_hostData (s : State) : (s.markRefusal).hostData = s.hostData := rfl
@[simp] theorem State.markRefusal_callResult (s : State) : (s.markRefusal).callResult = s.callResult := rfl
@[simp] theorem State.markRefusal_callerBuffer (s : State) : (s.markRefusal).callerBuffer = s.callerBuffer := rfl
@[simp] theorem State.markRefusal_schedule (s : State) : (s.markRefusal).schedule = s.schedule := rfl
@[simp] theorem State.markRefusal_turnsDrawn (s : State) : (s.markRefusal).turnsDrawn = s.turnsDrawn := rfl

@[simp] theorem State.recordFault_m (s : State) (f : ModelFault) : (s.recordFault f).m = s.m := by
  cases f <;> rfl
@[simp] theorem State.recordFault_b (s : State) (f : ModelFault) : (s.recordFault f).b = s.b := by
  cases f <;> rfl
@[simp] theorem State.recordFault_buf (s : State) (f : ModelFault) : (s.recordFault f).buf = s.buf := by
  cases f <;> rfl
@[simp] theorem State.recordFault_rom (s : State) (f : ModelFault) : (s.recordFault f).rom = s.rom := by
  cases f <;> rfl
@[simp] theorem State.recordFault_cfg (s : State) (f : ModelFault) : (s.recordFault f).cfg = s.cfg := by
  cases f <;> rfl
@[simp] theorem State.recordFault_trace (s : State) (f : ModelFault) : (s.recordFault f).trace = s.trace := by
  cases f <;> rfl
@[simp] theorem State.recordFault_refusalMark (s : State) (f : ModelFault) : (s.recordFault f).refusalMark = s.refusalMark := by
  cases f <;> rfl
@[simp] theorem State.recordFault_program (s : State) (f : ModelFault) : (s.recordFault f).program = s.program := by
  cases f <;> rfl
@[simp] theorem State.recordFault_hostData (s : State) (f : ModelFault) : (s.recordFault f).hostData = s.hostData := by
  cases f <;> rfl
@[simp] theorem State.recordFault_callResult (s : State) (f : ModelFault) : (s.recordFault f).callResult = s.callResult := by
  cases f <;> rfl
@[simp] theorem State.recordFault_callerBuffer (s : State) (f : ModelFault) : (s.recordFault f).callerBuffer = s.callerBuffer := by
  cases f <;> rfl
@[simp] theorem State.recordFault_schedule (s : State) (f : ModelFault) : (s.recordFault f).schedule = s.schedule := by
  cases f <;> rfl
@[simp] theorem State.recordFault_turnsDrawn (s : State) (f : ModelFault) : (s.recordFault f).turnsDrawn = s.turnsDrawn := by
  cases f <;> rfl

@[simp] theorem State.recordFault_unwrittenBuf (s : State) :
    (s.recordFault .unwrittenBuf).faults = { s.faults with unwrittenBuf := true } := rfl
@[simp] theorem State.recordFault_abortWithoutStop (s : State) :
    (s.recordFault .abortWithoutStop).faults = { s.faults with abortWithoutStop := true } := rfl

/-- A whole-field update of a field it already holds changes nothing. -/
@[simp] theorem State.withB_self (s : State) : s.withB s.b = s := rfl
@[simp] theorem State.withM_self (s : State) : s.withM s.m = s := rfl
@[simp] theorem State.withB_withB (s : State) (b c : Bc) : (s.withB b).withB c = s.withB c := rfl
@[simp] theorem State.withM_withM (s : State) (m n : Mte) : (s.withM m).withM n = s.withM n := rfl
@[simp] theorem State.withM_withB (s : State) (m : Mte) (b : Bc) : (s.withB b).withM m = (s.withM m).withB b := rfl

/-! ### The sequencer: it moves `m.upc`, loads `m.cnt`, and END clears `m.busy` -/

@[simp] theorem setUpc_b (a : MicroAddr) (s : State) : (setUpc a s).b = s.b := rfl
@[simp] theorem setUpc_buf (a : MicroAddr) (s : State) : (setUpc a s).buf = s.buf := rfl
@[simp] theorem setUpc_rom (a : MicroAddr) (s : State) : (setUpc a s).rom = s.rom := rfl
@[simp] theorem setUpc_cfg (a : MicroAddr) (s : State) : (setUpc a s).cfg = s.cfg := rfl
@[simp] theorem setUpc_trace (a : MicroAddr) (s : State) : (setUpc a s).trace = s.trace := rfl
@[simp] theorem setUpc_faults (a : MicroAddr) (s : State) : (setUpc a s).faults = s.faults := rfl
@[simp] theorem setUpc_refusalMark (a : MicroAddr) (s : State) : (setUpc a s).refusalMark = s.refusalMark := rfl
@[simp] theorem setUpc_program (a : MicroAddr) (s : State) : (setUpc a s).program = s.program := rfl
@[simp] theorem setUpc_hostData (a : MicroAddr) (s : State) : (setUpc a s).hostData = s.hostData := rfl
@[simp] theorem setUpc_callResult (a : MicroAddr) (s : State) : (setUpc a s).callResult = s.callResult := rfl
@[simp] theorem setUpc_callerBuffer (a : MicroAddr) (s : State) : (setUpc a s).callerBuffer = s.callerBuffer := rfl
@[simp] theorem setUpc_schedule (a : MicroAddr) (s : State) : (setUpc a s).schedule = s.schedule := rfl
@[simp] theorem setUpc_turnsDrawn (a : MicroAddr) (s : State) : (setUpc a s).turnsDrawn = s.turnsDrawn := rfl
@[simp] theorem setUpc_m_busy (a : MicroAddr) (s : State) : (setUpc a s).m.busy = s.m.busy := rfl
@[simp] theorem setUpc_m_op (a : MicroAddr) (s : State) : (setUpc a s).m.op = s.m.op := rfl
@[simp] theorem setUpc_m_upc (a : MicroAddr) (s : State) : (setUpc a s).m.upc = a := rfl
@[simp] theorem setUpc_m_addr (a : MicroAddr) (s : State) : (setUpc a s).m.addr = s.m.addr := rfl
@[simp] theorem setUpc_m_dir (a : MicroAddr) (s : State) : (setUpc a s).m.dir = s.m.dir := rfl
@[simp] theorem setUpc_m_nm1 (a : MicroAddr) (s : State) : (setUpc a s).m.nm1 = s.m.nm1 := rfl
@[simp] theorem setUpc_m_idx (a : MicroAddr) (s : State) : (setUpc a s).m.idx = s.m.idx := rfl
@[simp] theorem setUpc_m_armed (a : MicroAddr) (s : State) : (setUpc a s).m.armed = s.m.armed := rfl
@[simp] theorem setUpc_m_err (a : MicroAddr) (s : State) : (setUpc a s).m.err = s.m.err := rfl
@[simp] theorem setUpc_m_aph (a : MicroAddr) (s : State) : (setUpc a s).m.aph = s.m.aph := rfl
@[simp] theorem setUpc_m_nostop (a : MicroAddr) (s : State) : (setUpc a s).m.nostop = s.m.nostop := rfl
@[simp] theorem setUpc_m_result (a : MicroAddr) (s : State) : (setUpc a s).m.result = s.m.result := rfl
@[simp] theorem setUpc_m_errupc (a : MicroAddr) (s : State) : (setUpc a s).m.errupc = s.m.errupc := rfl
@[simp] theorem setUpc_m_clk (a : MicroAddr) (s : State) : (setUpc a s).m.clk = s.m.clk := rfl
@[simp] theorem setUpc_m_mode (a : MicroAddr) (s : State) : (setUpc a s).m.mode = s.m.mode := rfl
@[simp] theorem setUpc_m_duty (a : MicroAddr) (s : State) : (setUpc a s).m.duty = s.m.duty := rfl
@[simp] theorem setUpc_m_freq (a : MicroAddr) (s : State) : (setUpc a s).m.freq = s.m.freq := rfl
@[simp] theorem setUpc_m_trise (a : MicroAddr) (s : State) : (setUpc a s).m.trise = s.m.trise := rfl
@[simp] theorem setUpc_m_ccr (a : MicroAddr) (s : State) : (setUpc a s).m.ccr = s.m.ccr := rfl
@[simp] theorem setUpc_m_fs (a : MicroAddr) (s : State) : (setUpc a s).m.fs = s.m.fs := rfl
@[simp] theorem setUpc_m_dutybit (a : MicroAddr) (s : State) : (setUpc a s).m.dutybit = s.m.dutybit := rfl
@[simp] theorem setUpc_m_cfgvalid (a : MicroAddr) (s : State) : (setUpc a s).m.cfgvalid = s.m.cfgvalid := rfl
@[simp] theorem setUpc_m_cnt (a : MicroAddr) (s : State) :
    (setUpc a s).m.cnt = if a ≠ s.m.upc ∧ entersPoll s.rom a then s.cfg.pollBudget else s.m.cnt := rfl

@[simp] theorem applySeq_b (q : Seq) (t : MicroAddr) (s : State) : (applySeq q t s).b = s.b := by
  cases q <;> simp only [applySeq] <;> first | rfl | (split <;> rfl)
@[simp] theorem applySeq_buf (q : Seq) (t : MicroAddr) (s : State) : (applySeq q t s).buf = s.buf := by
  cases q <;> simp only [applySeq] <;> first | rfl | (split <;> rfl)
@[simp] theorem applySeq_rom (q : Seq) (t : MicroAddr) (s : State) : (applySeq q t s).rom = s.rom := by
  cases q <;> simp only [applySeq] <;> first | rfl | (split <;> rfl)
@[simp] theorem applySeq_cfg (q : Seq) (t : MicroAddr) (s : State) : (applySeq q t s).cfg = s.cfg := by
  cases q <;> simp only [applySeq] <;> first | rfl | (split <;> rfl)
@[simp] theorem applySeq_trace (q : Seq) (t : MicroAddr) (s : State) : (applySeq q t s).trace = s.trace := by
  cases q <;> simp only [applySeq] <;> first | rfl | (split <;> rfl)
@[simp] theorem applySeq_faults (q : Seq) (t : MicroAddr) (s : State) : (applySeq q t s).faults = s.faults := by
  cases q <;> simp only [applySeq] <;> first | rfl | (split <;> rfl)
@[simp] theorem applySeq_refusalMark (q : Seq) (t : MicroAddr) (s : State) : (applySeq q t s).refusalMark = s.refusalMark := by
  cases q <;> simp only [applySeq] <;> first | rfl | (split <;> rfl)
@[simp] theorem applySeq_program (q : Seq) (t : MicroAddr) (s : State) : (applySeq q t s).program = s.program := by
  cases q <;> simp only [applySeq] <;> first | rfl | (split <;> rfl)
@[simp] theorem applySeq_hostData (q : Seq) (t : MicroAddr) (s : State) : (applySeq q t s).hostData = s.hostData := by
  cases q <;> simp only [applySeq] <;> first | rfl | (split <;> rfl)
@[simp] theorem applySeq_callResult (q : Seq) (t : MicroAddr) (s : State) : (applySeq q t s).callResult = s.callResult := by
  cases q <;> simp only [applySeq] <;> first | rfl | (split <;> rfl)
@[simp] theorem applySeq_callerBuffer (q : Seq) (t : MicroAddr) (s : State) : (applySeq q t s).callerBuffer = s.callerBuffer := by
  cases q <;> simp only [applySeq] <;> first | rfl | (split <;> rfl)
@[simp] theorem applySeq_schedule (q : Seq) (t : MicroAddr) (s : State) : (applySeq q t s).schedule = s.schedule := by
  cases q <;> simp only [applySeq] <;> first | rfl | (split <;> rfl)
@[simp] theorem applySeq_turnsDrawn (q : Seq) (t : MicroAddr) (s : State) : (applySeq q t s).turnsDrawn = s.turnsDrawn := by
  cases q <;> simp only [applySeq] <;> first | rfl | (split <;> rfl)
@[simp] theorem applySeq_m_op (q : Seq) (t : MicroAddr) (s : State) : (applySeq q t s).m.op = s.m.op := by
  cases q <;> simp only [applySeq] <;> first | rfl | (split <;> rfl)
@[simp] theorem applySeq_m_addr (q : Seq) (t : MicroAddr) (s : State) : (applySeq q t s).m.addr = s.m.addr := by
  cases q <;> simp only [applySeq] <;> first | rfl | (split <;> rfl)
@[simp] theorem applySeq_m_dir (q : Seq) (t : MicroAddr) (s : State) : (applySeq q t s).m.dir = s.m.dir := by
  cases q <;> simp only [applySeq] <;> first | rfl | (split <;> rfl)
@[simp] theorem applySeq_m_nm1 (q : Seq) (t : MicroAddr) (s : State) : (applySeq q t s).m.nm1 = s.m.nm1 := by
  cases q <;> simp only [applySeq] <;> first | rfl | (split <;> rfl)
@[simp] theorem applySeq_m_idx (q : Seq) (t : MicroAddr) (s : State) : (applySeq q t s).m.idx = s.m.idx := by
  cases q <;> simp only [applySeq] <;> first | rfl | (split <;> rfl)
@[simp] theorem applySeq_m_armed (q : Seq) (t : MicroAddr) (s : State) : (applySeq q t s).m.armed = s.m.armed := by
  cases q <;> simp only [applySeq] <;> first | rfl | (split <;> rfl)
@[simp] theorem applySeq_m_err (q : Seq) (t : MicroAddr) (s : State) : (applySeq q t s).m.err = s.m.err := by
  cases q <;> simp only [applySeq] <;> first | rfl | (split <;> rfl)
@[simp] theorem applySeq_m_aph (q : Seq) (t : MicroAddr) (s : State) : (applySeq q t s).m.aph = s.m.aph := by
  cases q <;> simp only [applySeq] <;> first | rfl | (split <;> rfl)
@[simp] theorem applySeq_m_nostop (q : Seq) (t : MicroAddr) (s : State) : (applySeq q t s).m.nostop = s.m.nostop := by
  cases q <;> simp only [applySeq] <;> first | rfl | (split <;> rfl)
@[simp] theorem applySeq_m_result (q : Seq) (t : MicroAddr) (s : State) : (applySeq q t s).m.result = s.m.result := by
  cases q <;> simp only [applySeq] <;> first | rfl | (split <;> rfl)
@[simp] theorem applySeq_m_errupc (q : Seq) (t : MicroAddr) (s : State) : (applySeq q t s).m.errupc = s.m.errupc := by
  cases q <;> simp only [applySeq] <;> first | rfl | (split <;> rfl)
@[simp] theorem applySeq_m_clk (q : Seq) (t : MicroAddr) (s : State) : (applySeq q t s).m.clk = s.m.clk := by
  cases q <;> simp only [applySeq] <;> first | rfl | (split <;> rfl)
@[simp] theorem applySeq_m_mode (q : Seq) (t : MicroAddr) (s : State) : (applySeq q t s).m.mode = s.m.mode := by
  cases q <;> simp only [applySeq] <;> first | rfl | (split <;> rfl)
@[simp] theorem applySeq_m_duty (q : Seq) (t : MicroAddr) (s : State) : (applySeq q t s).m.duty = s.m.duty := by
  cases q <;> simp only [applySeq] <;> first | rfl | (split <;> rfl)
@[simp] theorem applySeq_m_freq (q : Seq) (t : MicroAddr) (s : State) : (applySeq q t s).m.freq = s.m.freq := by
  cases q <;> simp only [applySeq] <;> first | rfl | (split <;> rfl)
@[simp] theorem applySeq_m_trise (q : Seq) (t : MicroAddr) (s : State) : (applySeq q t s).m.trise = s.m.trise := by
  cases q <;> simp only [applySeq] <;> first | rfl | (split <;> rfl)
@[simp] theorem applySeq_m_ccr (q : Seq) (t : MicroAddr) (s : State) : (applySeq q t s).m.ccr = s.m.ccr := by
  cases q <;> simp only [applySeq] <;> first | rfl | (split <;> rfl)
@[simp] theorem applySeq_m_fs (q : Seq) (t : MicroAddr) (s : State) : (applySeq q t s).m.fs = s.m.fs := by
  cases q <;> simp only [applySeq] <;> first | rfl | (split <;> rfl)
@[simp] theorem applySeq_m_dutybit (q : Seq) (t : MicroAddr) (s : State) : (applySeq q t s).m.dutybit = s.m.dutybit := by
  cases q <;> simp only [applySeq] <;> first | rfl | (split <;> rfl)
@[simp] theorem applySeq_m_cfgvalid (q : Seq) (t : MicroAddr) (s : State) : (applySeq q t s).m.cfgvalid = s.m.cfgvalid := by
  cases q <;> simp only [applySeq] <;> first | rfl | (split <;> rfl)
@[simp] theorem applySeq_m_busy (q : Seq) (t : MicroAddr) (s : State) :
    (applySeq q t s).m.busy = if q = .endCmd then false else s.m.busy := by
  cases q <;> simp only [applySeq] <;> first | rfl | (split <;> rfl)

/-! ### Raising an error, and the end of ABORT -/

@[simp] theorem raise_b (e : ErrKind) (s : State) : (raise e s).b = s.b := rfl
@[simp] theorem raise_buf (e : ErrKind) (s : State) : (raise e s).buf = s.buf := rfl
@[simp] theorem raise_rom (e : ErrKind) (s : State) : (raise e s).rom = s.rom := rfl
@[simp] theorem raise_cfg (e : ErrKind) (s : State) : (raise e s).cfg = s.cfg := rfl
@[simp] theorem raise_trace (e : ErrKind) (s : State) : (raise e s).trace = s.trace := rfl
@[simp] theorem raise_faults (e : ErrKind) (s : State) : (raise e s).faults = s.faults := rfl
@[simp] theorem raise_refusalMark (e : ErrKind) (s : State) : (raise e s).refusalMark = s.refusalMark := rfl
@[simp] theorem raise_program (e : ErrKind) (s : State) : (raise e s).program = s.program := rfl
@[simp] theorem raise_hostData (e : ErrKind) (s : State) : (raise e s).hostData = s.hostData := rfl
@[simp] theorem raise_callResult (e : ErrKind) (s : State) : (raise e s).callResult = s.callResult := rfl
@[simp] theorem raise_callerBuffer (e : ErrKind) (s : State) : (raise e s).callerBuffer = s.callerBuffer := rfl
@[simp] theorem raise_schedule (e : ErrKind) (s : State) : (raise e s).schedule = s.schedule := rfl
@[simp] theorem raise_turnsDrawn (e : ErrKind) (s : State) : (raise e s).turnsDrawn = s.turnsDrawn := rfl
@[simp] theorem raise_m_busy (e : ErrKind) (s : State) : (raise e s).m.busy = s.m.busy := rfl
@[simp] theorem raise_m_op (e : ErrKind) (s : State) : (raise e s).m.op = s.m.op := rfl
@[simp] theorem raise_m_upc (e : ErrKind) (s : State) : (raise e s).m.upc = abortEntry := rfl
@[simp] theorem raise_m_addr (e : ErrKind) (s : State) : (raise e s).m.addr = s.m.addr := rfl
@[simp] theorem raise_m_dir (e : ErrKind) (s : State) : (raise e s).m.dir = s.m.dir := rfl
@[simp] theorem raise_m_nm1 (e : ErrKind) (s : State) : (raise e s).m.nm1 = s.m.nm1 := rfl
@[simp] theorem raise_m_idx (e : ErrKind) (s : State) : (raise e s).m.idx = s.m.idx := rfl
@[simp] theorem raise_m_armed (e : ErrKind) (s : State) : (raise e s).m.armed = s.m.armed := rfl
@[simp] theorem raise_m_err (e : ErrKind) (s : State) : (raise e s).m.err = e := rfl
@[simp] theorem raise_m_aph (e : ErrKind) (s : State) : (raise e s).m.aph = s.m.aph := rfl
@[simp] theorem raise_m_nostop (e : ErrKind) (s : State) : (raise e s).m.nostop = s.m.nostop := rfl
@[simp] theorem raise_m_result (e : ErrKind) (s : State) : (raise e s).m.result = s.m.result := rfl
@[simp] theorem raise_m_errupc (e : ErrKind) (s : State) : (raise e s).m.errupc = s.m.upc := rfl
@[simp] theorem raise_m_clk (e : ErrKind) (s : State) : (raise e s).m.clk = s.m.clk := rfl
@[simp] theorem raise_m_mode (e : ErrKind) (s : State) : (raise e s).m.mode = s.m.mode := rfl
@[simp] theorem raise_m_duty (e : ErrKind) (s : State) : (raise e s).m.duty = s.m.duty := rfl
@[simp] theorem raise_m_freq (e : ErrKind) (s : State) : (raise e s).m.freq = s.m.freq := rfl
@[simp] theorem raise_m_trise (e : ErrKind) (s : State) : (raise e s).m.trise = s.m.trise := rfl
@[simp] theorem raise_m_ccr (e : ErrKind) (s : State) : (raise e s).m.ccr = s.m.ccr := rfl
@[simp] theorem raise_m_fs (e : ErrKind) (s : State) : (raise e s).m.fs = s.m.fs := rfl
@[simp] theorem raise_m_dutybit (e : ErrKind) (s : State) : (raise e s).m.dutybit = s.m.dutybit := rfl
@[simp] theorem raise_m_cfgvalid (e : ErrKind) (s : State) : (raise e s).m.cfgvalid = s.m.cfgvalid := rfl
@[simp] theorem abortFinish_b (s : State) : (abortFinish s).b = s.b := rfl
@[simp] theorem abortFinish_buf (s : State) : (abortFinish s).buf = s.buf := rfl
@[simp] theorem abortFinish_rom (s : State) : (abortFinish s).rom = s.rom := rfl
@[simp] theorem abortFinish_cfg (s : State) : (abortFinish s).cfg = s.cfg := rfl
@[simp] theorem abortFinish_trace (s : State) : (abortFinish s).trace = s.trace := rfl
@[simp] theorem abortFinish_faults (s : State) : (abortFinish s).faults = s.faults := rfl
@[simp] theorem abortFinish_refusalMark (s : State) : (abortFinish s).refusalMark = s.refusalMark := rfl
@[simp] theorem abortFinish_program (s : State) : (abortFinish s).program = s.program := rfl
@[simp] theorem abortFinish_hostData (s : State) : (abortFinish s).hostData = s.hostData := rfl
@[simp] theorem abortFinish_callResult (s : State) : (abortFinish s).callResult = s.callResult := rfl
@[simp] theorem abortFinish_callerBuffer (s : State) : (abortFinish s).callerBuffer = s.callerBuffer := rfl
@[simp] theorem abortFinish_schedule (s : State) : (abortFinish s).schedule = s.schedule := rfl
@[simp] theorem abortFinish_turnsDrawn (s : State) : (abortFinish s).turnsDrawn = s.turnsDrawn := rfl
@[simp] theorem abortFinish_m_busy (s : State) : (abortFinish s).m.busy = false := rfl
@[simp] theorem abortFinish_m_op (s : State) : (abortFinish s).m.op = s.m.op := rfl
@[simp] theorem abortFinish_m_upc (s : State) : (abortFinish s).m.upc = s.m.upc := rfl
@[simp] theorem abortFinish_m_addr (s : State) : (abortFinish s).m.addr = s.m.addr := rfl
@[simp] theorem abortFinish_m_dir (s : State) : (abortFinish s).m.dir = s.m.dir := rfl
@[simp] theorem abortFinish_m_nm1 (s : State) : (abortFinish s).m.nm1 = s.m.nm1 := rfl
@[simp] theorem abortFinish_m_idx (s : State) : (abortFinish s).m.idx = s.m.idx := rfl
@[simp] theorem abortFinish_m_cnt (s : State) : (abortFinish s).m.cnt = s.m.cnt := rfl
@[simp] theorem abortFinish_m_armed (s : State) : (abortFinish s).m.armed = s.m.armed := rfl
@[simp] theorem abortFinish_m_err (s : State) : (abortFinish s).m.err = .none := rfl
@[simp] theorem abortFinish_m_aph (s : State) : (abortFinish s).m.aph = false := rfl
@[simp] theorem abortFinish_m_nostop (s : State) : (abortFinish s).m.nostop = s.m.nostop := rfl
@[simp] theorem abortFinish_m_result (s : State) : (abortFinish s).m.result = s.m.err.result := rfl
@[simp] theorem abortFinish_m_errupc (s : State) : (abortFinish s).m.errupc = s.m.errupc := rfl
@[simp] theorem abortFinish_m_clk (s : State) : (abortFinish s).m.clk = s.m.clk := rfl
@[simp] theorem abortFinish_m_mode (s : State) : (abortFinish s).m.mode = s.m.mode := rfl
@[simp] theorem abortFinish_m_duty (s : State) : (abortFinish s).m.duty = s.m.duty := rfl
@[simp] theorem abortFinish_m_freq (s : State) : (abortFinish s).m.freq = s.m.freq := rfl
@[simp] theorem abortFinish_m_trise (s : State) : (abortFinish s).m.trise = s.m.trise := rfl
@[simp] theorem abortFinish_m_ccr (s : State) : (abortFinish s).m.ccr = s.m.ccr := rfl
@[simp] theorem abortFinish_m_fs (s : State) : (abortFinish s).m.fs = s.m.fs := rfl
@[simp] theorem abortFinish_m_dutybit (s : State) : (abortFinish s).m.dutybit = s.m.dutybit := rfl
@[simp] theorem abortFinish_m_cfgvalid (s : State) : (abortFinish s).m.cfgvalid = s.m.cfgvalid := rfl

/-! ### The reads of a register: they change the bus controller only -/

@[simp] theorem readSr1_m (s : State) : (readSr1 s).2.m = s.m := rfl
@[simp] theorem readSr1_buf (s : State) : (readSr1 s).2.buf = s.buf := rfl
@[simp] theorem readSr1_rom (s : State) : (readSr1 s).2.rom = s.rom := rfl
@[simp] theorem readSr1_cfg (s : State) : (readSr1 s).2.cfg = s.cfg := rfl
@[simp] theorem readSr1_trace (s : State) : (readSr1 s).2.trace = s.trace := rfl
@[simp] theorem readSr1_faults (s : State) : (readSr1 s).2.faults = s.faults := rfl
@[simp] theorem readSr1_refusalMark (s : State) : (readSr1 s).2.refusalMark = s.refusalMark := rfl
@[simp] theorem readSr1_program (s : State) : (readSr1 s).2.program = s.program := rfl
@[simp] theorem readSr1_hostData (s : State) : (readSr1 s).2.hostData = s.hostData := rfl
@[simp] theorem readSr1_callResult (s : State) : (readSr1 s).2.callResult = s.callResult := rfl
@[simp] theorem readSr1_callerBuffer (s : State) : (readSr1 s).2.callerBuffer = s.callerBuffer := rfl
@[simp] theorem readSr1_schedule (s : State) : (readSr1 s).2.schedule = s.schedule := rfl
@[simp] theorem readSr1_turnsDrawn (s : State) : (readSr1 s).2.turnsDrawn = s.turnsDrawn := rfl
@[simp] theorem readDr_m (s : State) : (readDr s).2.m = s.m := rfl
@[simp] theorem readDr_buf (s : State) : (readDr s).2.buf = s.buf := rfl
@[simp] theorem readDr_rom (s : State) : (readDr s).2.rom = s.rom := rfl
@[simp] theorem readDr_cfg (s : State) : (readDr s).2.cfg = s.cfg := rfl
@[simp] theorem readDr_trace (s : State) : (readDr s).2.trace = s.trace := rfl
@[simp] theorem readDr_faults (s : State) : (readDr s).2.faults = s.faults := rfl
@[simp] theorem readDr_refusalMark (s : State) : (readDr s).2.refusalMark = s.refusalMark := rfl
@[simp] theorem readDr_program (s : State) : (readDr s).2.program = s.program := rfl
@[simp] theorem readDr_hostData (s : State) : (readDr s).2.hostData = s.hostData := rfl
@[simp] theorem readDr_callResult (s : State) : (readDr s).2.callResult = s.callResult := rfl
@[simp] theorem readDr_callerBuffer (s : State) : (readDr s).2.callerBuffer = s.callerBuffer := rfl
@[simp] theorem readDr_schedule (s : State) : (readDr s).2.schedule = s.schedule := rfl
@[simp] theorem readDr_turnsDrawn (s : State) : (readDr s).2.turnsDrawn = s.turnsDrawn := rfl
@[simp] theorem readSr2_m (s : State) : (readSr2 s).2.m = s.m := by
  simp only [readSr2]
  split <;> rfl
@[simp] theorem readSr2_buf (s : State) : (readSr2 s).2.buf = s.buf := by
  simp only [readSr2]
  split <;> rfl
@[simp] theorem readSr2_rom (s : State) : (readSr2 s).2.rom = s.rom := by
  simp only [readSr2]
  split <;> rfl
@[simp] theorem readSr2_cfg (s : State) : (readSr2 s).2.cfg = s.cfg := by
  simp only [readSr2]
  split <;> rfl
@[simp] theorem readSr2_trace (s : State) : (readSr2 s).2.trace = s.trace := by
  simp only [readSr2]
  split <;> rfl
@[simp] theorem readSr2_faults (s : State) : (readSr2 s).2.faults = s.faults := by
  simp only [readSr2]
  split <;> rfl
@[simp] theorem readSr2_refusalMark (s : State) : (readSr2 s).2.refusalMark = s.refusalMark := by
  simp only [readSr2]
  split <;> rfl
@[simp] theorem readSr2_program (s : State) : (readSr2 s).2.program = s.program := by
  simp only [readSr2]
  split <;> rfl
@[simp] theorem readSr2_hostData (s : State) : (readSr2 s).2.hostData = s.hostData := by
  simp only [readSr2]
  split <;> rfl
@[simp] theorem readSr2_callResult (s : State) : (readSr2 s).2.callResult = s.callResult := by
  simp only [readSr2]
  split <;> rfl
@[simp] theorem readSr2_callerBuffer (s : State) : (readSr2 s).2.callerBuffer = s.callerBuffer := by
  simp only [readSr2]
  split <;> rfl
@[simp] theorem readSr2_schedule (s : State) : (readSr2 s).2.schedule = s.schedule := by
  simp only [readSr2]
  split <;> rfl
@[simp] theorem readSr2_turnsDrawn (s : State) : (readSr2 s).2.turnsDrawn = s.turnsDrawn := by
  simp only [readSr2]
  split <;> rfl
@[simp] theorem writeDr_m (v : Half) (s : State) : (writeDr v s).m = s.m := by
  simp only [writeDr]
  split <;> first | rfl | (split <;> rfl)
@[simp] theorem writeDr_buf (v : Half) (s : State) : (writeDr v s).buf = s.buf := by
  simp only [writeDr]
  split <;> first | rfl | (split <;> rfl)
@[simp] theorem writeDr_rom (v : Half) (s : State) : (writeDr v s).rom = s.rom := by
  simp only [writeDr]
  split <;> first | rfl | (split <;> rfl)
@[simp] theorem writeDr_cfg (v : Half) (s : State) : (writeDr v s).cfg = s.cfg := by
  simp only [writeDr]
  split <;> first | rfl | (split <;> rfl)
@[simp] theorem writeDr_trace (v : Half) (s : State) : (writeDr v s).trace = s.trace := by
  simp only [writeDr]
  split <;> first | rfl | (split <;> rfl)
@[simp] theorem writeDr_faults (v : Half) (s : State) : (writeDr v s).faults = s.faults := by
  simp only [writeDr]
  split <;> first | rfl | (split <;> rfl)
@[simp] theorem writeDr_refusalMark (v : Half) (s : State) : (writeDr v s).refusalMark = s.refusalMark := by
  simp only [writeDr]
  split <;> first | rfl | (split <;> rfl)
@[simp] theorem writeDr_program (v : Half) (s : State) : (writeDr v s).program = s.program := by
  simp only [writeDr]
  split <;> first | rfl | (split <;> rfl)
@[simp] theorem writeDr_hostData (v : Half) (s : State) : (writeDr v s).hostData = s.hostData := by
  simp only [writeDr]
  split <;> first | rfl | (split <;> rfl)
@[simp] theorem writeDr_callResult (v : Half) (s : State) : (writeDr v s).callResult = s.callResult := by
  simp only [writeDr]
  split <;> first | rfl | (split <;> rfl)
@[simp] theorem writeDr_callerBuffer (v : Half) (s : State) : (writeDr v s).callerBuffer = s.callerBuffer := by
  simp only [writeDr]
  split <;> first | rfl | (split <;> rfl)
@[simp] theorem writeDr_schedule (v : Half) (s : State) : (writeDr v s).schedule = s.schedule := by
  simp only [writeDr]
  split <;> first | rfl | (split <;> rfl)
@[simp] theorem writeDr_turnsDrawn (v : Half) (s : State) : (writeDr v s).turnsDrawn = s.turnsDrawn := by
  simp only [writeDr]
  split <;> first | rfl | (split <;> rfl)
@[simp] theorem writeSr1_m (v : Half) (s : State) : (writeSr1 v s).m = s.m := rfl
@[simp] theorem writeSr1_buf (v : Half) (s : State) : (writeSr1 v s).buf = s.buf := rfl
@[simp] theorem writeSr1_rom (v : Half) (s : State) : (writeSr1 v s).rom = s.rom := rfl
@[simp] theorem writeSr1_cfg (v : Half) (s : State) : (writeSr1 v s).cfg = s.cfg := rfl
@[simp] theorem writeSr1_trace (v : Half) (s : State) : (writeSr1 v s).trace = s.trace := rfl
@[simp] theorem writeSr1_faults (v : Half) (s : State) : (writeSr1 v s).faults = s.faults := rfl
@[simp] theorem writeSr1_refusalMark (v : Half) (s : State) : (writeSr1 v s).refusalMark = s.refusalMark := rfl
@[simp] theorem writeSr1_program (v : Half) (s : State) : (writeSr1 v s).program = s.program := rfl
@[simp] theorem writeSr1_hostData (v : Half) (s : State) : (writeSr1 v s).hostData = s.hostData := rfl
@[simp] theorem writeSr1_callResult (v : Half) (s : State) : (writeSr1 v s).callResult = s.callResult := rfl
@[simp] theorem writeSr1_callerBuffer (v : Half) (s : State) : (writeSr1 v s).callerBuffer = s.callerBuffer := rfl
@[simp] theorem writeSr1_schedule (v : Half) (s : State) : (writeSr1 v s).schedule = s.schedule := rfl
@[simp] theorem writeSr1_turnsDrawn (v : Half) (s : State) : (writeSr1 v s).turnsDrawn = s.turnsDrawn := rfl

end Sys2Proof.Machine
end

