-- ==== Sys2Proof/Laws/Ops.lean ====
section
/-! SUPPORT. One lemma per shared operation that says everything the operation can do, for the proofs to cite. -/

namespace Sys2Proof.Machine

/-! ### Sequencing of accesses -/

@[simp] theorem Micro.bind_ok {α β : Type} (a : α) (f : α → Micro β) : (Micro.ok a).bind f = f a := rfl
@[simp] theorem Micro.bind_fault {α β : Type} (e : ModelFault) (f : α → Micro β) :
    (Micro.fault e : Micro α).bind f = .fault e := rfl
@[simp] theorem Micro.bind_refuse {α β : Type} (f : α → Micro β) : (Micro.refuse : Micro α).bind f = .refuse := rfl
@[simp] theorem Micro.bind_stop {α β : Type} (e : Fault) (f : α → Micro β) :
    (Micro.stop e : Micro α).bind f = .stop e := rfl

/-- A sequence that is done is done in both parts. -/
theorem Micro.bind_eq_ok {α β : Type} {x : Micro α} {f : α → Micro β} {b : β} (h : x.bind f = .ok b) :
    ∃ a, x = .ok a ∧ f a = .ok b := by
  cases x with
  | ok a => exact ⟨a, rfl, h⟩
  | fault e => cases h
  | refuse => cases h
  | stop e => cases h

/-! ### The end of a micro-operation -/

/-- Everything the end of a micro-operation can do when it answers a next state. -/
theorem finishMicro_next {seq : Seq} {tgt : MicroAddr} {s t : State} {body : Micro State}
    (h : finishMicro seq tgt s body = .next t) :
    (∃ u, body = .ok u ∧ t = applySeq seq tgt u) ∨ (∃ f, body = .fault f ∧ t = s.recordFault f) ∨
      (body = .refuse ∧ t = s.markRefusal) := by
  cases body with
  | ok u => exact .inl ⟨u, rfl, by simpa [finishMicro] using h.symm⟩
  | fault f => exact .inr (.inl ⟨f, rfl, by simpa [finishMicro] using h.symm⟩)
  | refuse => exact .inr (.inr ⟨rfl, by simpa [finishMicro] using h.symm⟩)
  | stop f => simp [finishMicro] at h

/-- A body that is done ends with SEQ applied. -/
@[simp] theorem finishMicro_ok (seq : Seq) (tgt : MicroAddr) (s u : State) :
    finishMicro seq tgt s (.ok u) = .next (applySeq seq tgt u) := rfl
@[simp] theorem finishMicro_fault (seq : Seq) (tgt : MicroAddr) (s : State) (f : ModelFault) :
    finishMicro seq tgt s (.fault f) = .next (s.recordFault f) := rfl
@[simp] theorem finishMicro_refuse (seq : Seq) (tgt : MicroAddr) (s : State) :
    finishMicro seq tgt s .refuse = .next s.markRefusal := rfl

/-! ### The sequencer -/

/-- SEQ moves `m.upc`, may load `m.cnt` and may end the command; nothing else changes. -/
theorem applySeq_shape (seq : Seq) (tgt : MicroAddr) (s : State) :
    ∃ (u : MicroAddr) (c : BitVec 16) (b : Bool),
      applySeq seq tgt s = s.withM { s.m with upc := u, cnt := c, busy := b } := by
  cases seq <;> simp only [applySeq] <;> first
    | exact ⟨_, _, _, rfl⟩
    | (split <;> exact ⟨_, _, _, rfl⟩)

/-- Any SEQ but END keeps the command running. -/
theorem applySeq_busy_of_ne (seq : Seq) (tgt : MicroAddr) (s : State) (h : seq ≠ .endCmd) :
    (applySeq seq tgt s).m.busy = s.m.busy := by
  simp [h]

/-! ### The bus-controller registers -/

/-- A `BCSet` of CR1 writes CR1 with some of the bits it holds changed. -/
@[simp] theorem bcSet_cr1 (change : Half → Half) (s : State) : bcSet 0x00 change s = writeCr1 (change s.b.cr1) s := rfl

/-- A `BCSet` of CR2 replaces its implemented bits. -/
@[simp] theorem bcSet_cr2 (change : Half → Half) (s : State) :
    bcSet 0x04 change s = .ok (s.withB { s.b with cr2 := change s.b.cr2 &&& cr2Bits }) := rfl

@[simp] theorem bcWrite_dr (v : Half) (s : State) : bcWrite 0x10 v s = .ok (writeDr v s) := rfl
@[simp] theorem bcWrite_sr1 (v : Half) (s : State) : bcWrite 0x14 v s = .ok (writeSr1 v s) := rfl
@[simp] theorem bcWrite_ccr (v : Half) (s : State) :
    bcWrite 0x1C v s = .ok (s.withB { s.b with ccr := v &&& ccrBits }) := rfl
@[simp] theorem bcWrite_trise (v : Half) (s : State) :
    bcWrite 0x20 v s = .ok (s.withB { s.b with trise := v &&& triseBits }) := rfl
@[simp] theorem bcWrite_fltr (v : Half) (s : State) :
    bcWrite 0x24 v s = .ok (s.withB { s.b with fltr := v &&& fltrBits }) := rfl
@[simp] theorem bcRead_dr (s : State) : bcRead 0x10 s = .ok (readDr s) := rfl
@[simp] theorem bcRead_sr2 (s : State) : bcRead 0x18 s = .ok (readSr2 s) := rfl

/-- Everything a CR1 write can do. -/
theorem writeCr1_cases (v : Half) (s : State) :
    (flag v 15 = true ∧ writeCr1 v s = .refuse) ∨
    (flag v 15 = false ∧ flag v 0 = true ∧ writeCr1 v s = .ok (s.withB { s.b with cr1 := v &&& cr1Bits })) ∨
    (flag v 15 = false ∧ flag v 0 = false ∧ s.b.bmode.isMaster = true ∧ writeCr1 v s = .fault .abortWithoutStop) ∨
    (flag v 15 = false ∧ flag v 0 = false ∧ s.b.bmode.isMaster = false ∧
      writeCr1 v s = .ok (s.withB (s.b.disable v))) := by
  unfold writeCr1
  cases h15 : flag v 15 <;> cases h0 : flag v 0 <;> cases hm : s.b.bmode.isMaster <;> simp [*]

/-- A CR1 write that is done changes the bus controller only: CR1, or all that the disable effects touch. -/
theorem writeCr1_ok {v : Half} {s t : State} (h : writeCr1 v s = .ok t) :
    ∃ b, t = s.withB b ∧ (b = { s.b with cr1 := v &&& cr1Bits } ∧ flag v 0 = true ∨
      b = s.b.disable v ∧ flag v 0 = false ∧ s.b.bmode.isMaster = false) := by
  rcases writeCr1_cases v s with ⟨_, e⟩ | ⟨_, h0, e⟩ | ⟨_, _, _, e⟩ | ⟨_, h0, hm, e⟩ <;> rw [e] at h <;> cases h
  · exact ⟨_, rfl, .inl ⟨rfl, h0⟩⟩
  · exact ⟨_, rfl, .inr ⟨rfl, h0, hm⟩⟩

/-- Everything a DR write can do: DR takes the byte in all three cases. -/
theorem writeDr_cases (v : Half) (s : State) :
    (flag s.b.sr1 sr1SB = true ∧ s.b.sr1SeenSB = true ∧
      writeDr v s = s.withB { s.b with
        dr := v &&& drBits, sr1 := setFlag s.b.sr1 sr1SB false, sr1SeenSB := false, bmode := .mAddr }) ∨
    (s.b.bmode = .mTx ∧ flag s.b.sr1 sr1TXE = true ∧
      writeDr v s = s.withB { s.b with
        dr := v &&& drBits, sr1 := setFlag (setFlag s.b.sr1 sr1TXE false) sr1BTF false, txPending := true }) ∨
    writeDr v s = s.withB { s.b with dr := v &&& drBits } := by
  unfold writeDr
  split
  · next h =>
    simp only [Bool.and_eq_true] at h
    exact .inl ⟨h.1, h.2, rfl⟩
  · split
    · next h => exact .inr (.inl ⟨h.1, h.2, rfl⟩)
    · exact .inr (.inr rfl)

/-- A read of SR2 changes at most SR1 and the ADDR seen mark. -/
theorem readSr2_cases (s : State) :
    (flag s.b.sr1 sr1ADDR = true ∧ s.b.sr1SeenADDR = true ∧ readSr2 s = (s.b.sr2, s.withB s.b.clearAddr)) ∨
    ((flag s.b.sr1 sr1ADDR && s.b.sr1SeenADDR) = false ∧ readSr2 s = (s.b.sr2, s)) := by
  unfold readSr2
  split
  · next h =>
    simp only [Bool.and_eq_true] at h
    exact .inl ⟨h.1, h.2, rfl⟩
  · next h => exact .inr ⟨by simpa using h, rfl⟩

/-! ### Polls -/

/-- The reads of a poll change the bus controller only, and there SR1 and the two seen marks only. -/
theorem pollReads_shape (row : PollRow) (s : State) :
    ∃ (sr1 : Half) (sb ad : Bool),
      (pollReads row s).2 = s.withB { s.b with sr1 := sr1, sr1SeenSB := sb, sr1SeenADDR := ad } := by
  unfold pollReads
  simp only []
  cases row.readsSr1 <;> cases row.readsSr2.now s.m.armed <;> simp only [if_true, Bool.false_eq_true, if_false]
  · exact ⟨s.b.sr1, s.b.sr1SeenSB, s.b.sr1SeenADDR, rfl⟩
  · rcases readSr2_cases s with ⟨_, _, e⟩ | ⟨_, e⟩ <;> rw [e]
    · exact ⟨_, s.b.sr1SeenSB, false, rfl⟩
    · exact ⟨s.b.sr1, s.b.sr1SeenSB, s.b.sr1SeenADDR, rfl⟩
  · exact ⟨s.b.sr1, _, _, rfl⟩
  · rcases readSr2_cases (readSr1 s).2 with ⟨_, _, e⟩ | ⟨_, e⟩ <;> rw [e]
    · exact ⟨_, _, false, rfl⟩
    · exact ⟨s.b.sr1, _, _, rfl⟩

/-- Everything an iteration that resolves nothing can do. -/
theorem pollUnresolved_cases (s : State) :
    (s.cfg.pollBudget = 0#16 ∧ pollUnresolved s = s) ∨
    (s.cfg.pollBudget ≠ 0#16 ∧ s.m.cnt - 1 = 0#16 ∧
      pollUnresolved s = raise .timeout (s.withM { s.m with cnt := s.m.cnt - 1 })) ∨
    (s.cfg.pollBudget ≠ 0#16 ∧ s.m.cnt - 1 ≠ 0#16 ∧
      pollUnresolved s = s.withM { s.m with cnt := s.m.cnt - 1 }) := by
  unfold pollUnresolved
  split
  · next h => exact .inl ⟨h, rfl⟩
  · next h =>
    split
    · next h1 => exact .inr (.inl ⟨h, h1, rfl⟩)
    · next h1 => exact .inr (.inr ⟨h, h1, rfl⟩)

/-- Everything one iteration of a poll can do. -/
theorem pollOnce_cases (row : PollRow) (act : State → State) (seq : Seq) (tgt : MicroAddr) (s : State) :
    (s.m.armed = true ∧ row.armedCheck.fails (pollReads row s).1 = true ∧
      pollOnce row act seq tgt s = raise .arbitrationLost (pollReads row s).2) ∨
    (row.nackCheck = true ∧ flag (pollReads row s).1.sr1 sr1AF = true ∧
      pollOnce row act seq tgt s = raise .nackReceived (pollReads row s).2) ∨
    (row.cond.holds (pollReads row s).1 = true ∧
      pollOnce row act seq tgt s = applySeq seq tgt (act (pollReads row s).2)) ∨
    (row.cond.holds (pollReads row s).1 = false ∧
      pollOnce row act seq tgt s = pollUnresolved (pollReads row s).2) := by
  unfold pollOnce
  simp only []
  split
  · next h =>
    simp only [Bool.and_eq_true] at h
    exact .inl ⟨h.1, h.2, rfl⟩
  · split
    · next h =>
      simp only [Bool.and_eq_true] at h
      exact .inr (.inl ⟨h.1, h.2, rfl⟩)
    · split
      · next h => exact .inr (.inr (.inl ⟨h, rfl⟩))
      · next h => exact .inr (.inr (.inr ⟨by simpa using h, rfl⟩))

/-- Everything the START step can do: its guard held, and the block is then master, in M_SB. -/
theorem bcStart_some {s t : State} (h : bcStart s = some t) :
    flag s.b.cr1 cr1PE = true ∧ flag s.b.cr1 cr1START = true ∧ s.b.bmode = .idle ∧ flag s.b.sr2 sr2BUSY = false ∧
      t.b.bmode = .mSb ∧ t.b.cr1 = setFlag s.b.cr1 cr1START false ∧ t.m = s.m := by
  unfold bcStart at h
  split at h
  · next hg =>
    cases h
    exact ⟨hg.1, hg.2.1, hg.2.2.1, by simpa using hg.2.2.2, rfl, rfl, rfl⟩
  · cases h

/-! ### Steps -/

/-- A step to a next state is a turn taken in a state with no fault recorded. -/
theorem step_next {s t : State} (h : step s = .next t) :
    s.faults.unwrittenBuf = false ∧ s.faults.abortWithoutStop = false ∧
      runTurn (nextTurn s).1 (nextTurn s).2 = .next t := by
  unfold step stepBody at h
  cases hu : s.faults.unwrittenBuf <;> cases ha : s.faults.abortWithoutStop <;> simp [recordedFault, hu, ha] at h
  exact ⟨rfl, rfl, h⟩

/-- Taking a turn off changes only the schedule and the count of drawn turns. -/
theorem nextTurn_shape (s : State) :
    ∃ (q : List Turn) (n : Nat), (nextTurn s).2 = { s with schedule := q, turnsDrawn := n } := by
  unfold nextTurn
  split
  · exact ⟨_, s.turnsDrawn, rfl⟩
  · exact ⟨s.schedule, _, rfl⟩

/-- Everything the MTE's turn can do when it answers a next state. -/
theorem mteTurn_next {s t : State} (h : mteTurn s = .next t) :
    (s.m.busy = false ∧ t = s) ∨
    (s.m.busy = true ∧ ∃ w, fetchWord s = some w ∧
      ((∃ e, decodeUop w = .error e ∧ t = s.markRefusal) ∨ ∃ i, decodeUop w = .ok i ∧ exec i s = .next t)) := by
  unfold mteTurn at h
  split at h
  · next hb =>
    split at h
    · cases h
    · next w hw =>
      split at h
      · next e he => cases h; exact .inr ⟨hb, w, hw, .inl ⟨e, he, rfl⟩⟩
      · next i hi => exact .inr ⟨hb, w, hw, .inr ⟨i, hi, h⟩⟩
  · next hb => cases h; exact .inl ⟨by simpa using hb, rfl⟩

/-- A turn of the bus controller or the environment takes its step if the guard holds. -/
theorem runTurn_bus (t : Turn) (s : State) (h1 : t ≠ .host) (h2 : t ≠ .mte) :
    runTurn t s = .next ((busStep t s).getD s) := by
  cases t <;> first | rfl | contradiction

/-- A taken bus step changes the bus controller and appends to the trace, nothing else. -/
theorem busStep_shape {t : Turn} {s u : State} (h : busStep t s = some u) :
    ∃ (b : Bc) (evs : List Event), u = { s with b := b, trace := s.trace ++ evs } := by
  have h0 : ∀ b : Bc, s.withB b = { s with b := b, trace := s.trace ++ [] } := fun b => by simp [State.withB]
  have h1 : ∀ (b : Bc) (x : Event), (s.emit x).withB b = { s with b := b, trace := s.trace ++ [x] } := fun b x => rfl
  have h2 : ∀ (b : Bc) (x y : Event), ((s.emit x).emit y).withB b = { s with b := b, trace := s.trace ++ [x, y] } :=
    fun b x y => by simp [State.emit, State.withB]
  have h3 : ∀ (b : Bc) (x y z : Event),
      (((s.emit x).emit y).emit z).withB b = { s with b := b, trace := s.trace ++ [x, y, z] } :=
    fun b x y z => by simp [State.emit, State.withB]
  cases t <;> simp only [busStep, bcStart, bcAddr, bcAddrArb, bcTx, bcRx, bcStop, bcStopIdle, envClaim, envRelease] at h
  all_goals
    repeat' split at h
    all_goals first
      | (cases h; done)
      | (cases h
         first
           | exact ⟨_, _, h0 _⟩
           | exact ⟨_, _, h1 _ _⟩
           | exact ⟨_, _, h2 _ _ _⟩
           | exact ⟨_, _, h3 _ _ _ _⟩)

/-- A host read returns a value, records a fault or is refused; the machine's own registers are left alone. -/
theorem hostRead_shape (w : Width) (off : Nat) (s : State) :
    ∃ (v : Option HostValue) (f : FaultSet) (r : Bool),
      hostRead w off s = { s with hostData := v, faults := f, refusalMark := r } := by
  unfold hostRead
  repeat' split
  all_goals first
    | exact ⟨_, _, s.refusalMark, rfl⟩
    | exact ⟨s.hostData, s.faults, true, rfl⟩
    | (unfold hostReadBuf
       repeat' split
       all_goals first
         | exact ⟨s.hostData, s.faults, true, rfl⟩
         | exact ⟨_, s.faults, s.refusalMark, rfl⟩
         | exact ⟨s.hostData, { s.faults with unwrittenBuf := true }, s.refusalMark, rfl⟩)

/-! ### The host's turn -/

/-- BUSY of the STATUS image is `m.busy` (rule R27). -/
@[simp] theorem statusBusy_statusImage (m : Mte) : statusBusy (statusImage m) = m.busy := by
  unfold statusBusy statusImage
  rw [BitVec.getLsbD_append]
  simp

/-- RESULT of the STATUS image is the code of `m.result` (rule R27). -/
@[simp] theorem statusResult_statusImage (m : Mte) : statusResult (statusImage m) = m.result.code := by
  apply BitVec.eq_of_getLsbD_eq
  intro k hk
  unfold statusResult statusImage
  simp only [BitVec.getLsbD_extractLsb', BitVec.getLsbD_append]
  interval_cases k <;> simp

/-- Everything a STATUS read of a `wait` can do. -/
theorem waitOnce_cases (c : Option Call) (rest : List HostStep) (s : State) :
    (s.m.busy = true ∧ waitOnce c rest s = { s with hostData := some (.word (statusImage s.m)) }) ∨
    (s.m.busy = false ∧ waitOnce c rest s =
      endWait c (statusImage s.m) { s with hostData := some (.word (statusImage s.m)), program := rest }) := by
  have h : hostRead .word 0x004 s = { s with hostData := some (.word (statusImage s.m)) } := by
    simp [hostRead, hiTarget, hiFits, returnToHost]
  unfold waitOnce
  cases hb : s.m.busy <;> simp [hb, h]

/-- The end of a `wait` changes what the host got back and its program only. -/
theorem endWait_shape (c : Option Call) (w : Word) (s : State) :
    ∃ (r : Option CallResult) (p : List HostStep),
      endWait c w s = { s with callResult := r, program := p } ∧
        (p = s.program ∨ ∃ n, c = some (.read n) ∧ p = fetchBytes n ++ s.program) := by
  unfold endWait
  split
  · exact ⟨s.callResult, s.program, rfl, .inl rfl⟩
  · next c =>
    refine ⟨_, _, rfl, ?_⟩
    cases c with
    | init => exact .inl rfl
    | write => exact .inl rfl
    | read n =>
      simp only [callFetch]
      split
      · exact .inr ⟨n, rfl, rfl⟩
      · exact .inl rfl

/-- A fetch of the caller is a host read, after which the caller's buffer holds at most one byte more. -/
theorem fetchByte_shape (i : Nat) (s : State) :
    ∃ (v : Option HostValue) (f : FaultSet) (r : Bool) (mem : Memory),
      fetchByte i s = { s with hostData := v, faults := f, refusalMark := r, callerBuffer := mem } ∧
        (mem = s.callerBuffer ∨ i < bufDepth ∧ ∃ x, mem = s.callerBuffer.write i x) := by
  obtain ⟨v, f, r, e⟩ := hostRead_shape .byte (0x100 + i) s
  simp only [fetchByte, e]
  split
  · next h =>
    split
    · next x hx => exact ⟨v, f, r, _, rfl, .inr ⟨h.2, x, rfl⟩⟩
    · exact ⟨v, f, r, s.callerBuffer, rfl, .inl rfl⟩
  · exact ⟨v, f, r, s.callerBuffer, rfl, .inl rfl⟩

end Sys2Proof.Machine
end

