-- ==== Sys2Proof/Laws/PerInstr.lean ====
section
/-! SUPPORT. Per instruction: the encoded word has the fixed bits of its row of spec/opcode_table.json. -/

namespace Sys2Proof.Laws.TableMatch

/-- A command word with a row's fixed bits. -/
def CmdRow (c : Code) (mask fixed : Word) : Prop := ∃ w, c = .cmd w ∧ w &&& mask = fixed

/-- A ROM word with a row's fixed bits; every row of this format has the mask 0xC01F. -/
def UopRow (c : Code) (fixed : Half) : Prop := ∃ w, c = .uop w ∧ w &&& 0xC01F#16 = fixed

/-- The word of a well-formed instruction has the fixed bits of the instruction's row. A BAD_COMMAND word is of its row
(OP = 0), or is a WRITE or READ word with a nonzero reserved bit (rule R84). -/
def Statement (i : Instr) : Prop :=
  i.wellFormed = true →
  match i with
  | .init _ _ _ => CmdRow (encode i) 0x00000003#32 0x00000001#32
  | .write _ _ => CmdRow (encode i) 0xFF0080FF#32 0x00000002#32
  | .read _ _ => CmdRow (encode i) 0xFF0080FF#32 0x00000003#32
  | .badCommand w =>
    CmdRow (encode i) 0x00000003#32 0x00000000#32 ∨
      (w.extractLsb' 0 2 ≠ 1#2 ∧ w &&& 0xFF0080FC#32 ≠ 0#32 ∧ encode i = .cmd w)
  | .done _ _ => UopRow (encode i) 0x0000#16
  | .tcuEval _ _ => UopRow (encode i) 0x0001#16
  | .peOff _ _ => UopRow (encode i) 0x0002#16
  | .selI2c _ _ => UopRow (encode i) 0x0003#16
  | .setOpts _ _ => UopRow (encode i) 0x0004#16
  | .wrFreq _ _ => UopRow (encode i) 0x0005#16
  | .wrCcr _ _ => UopRow (encode i) 0x0006#16
  | .wrTrise _ _ => UopRow (encode i) 0x0007#16
  | .peOn _ _ => UopRow (encode i) 0x0008#16
  | .ackOn _ _ => UopRow (encode i) 0x0009#16
  | .genStart _ _ => UopRow (encode i) 0x000A#16
  | .pollSb _ _ => UopRow (encode i) 0x000B#16
  | .pollMb _ _ => UopRow (encode i) 0x000C#16
  | .txAddr _ _ => UopRow (encode i) 0x000D#16
  | .pollAddr _ _ => UopRow (encode i) 0x000E#16
  | .clrAddr _ _ => UopRow (encode i) 0x000F#16
  | .pollTxe _ _ => UopRow (encode i) 0x0010#16
  | .txData _ _ => UopRow (encode i) 0x0011#16
  | .pollBtf _ _ => UopRow (encode i) 0x0012#16
  | .genStop _ _ => UopRow (encode i) 0x0013#16
  | .pollStop _ _ => UopRow (encode i) 0x0014#16
  | .pollRxne _ _ => UopRow (encode i) 0x0015#16
  | .rxData _ _ => UopRow (encode i) 0x0016#16
  | .nackStop _ _ => UopRow (encode i) 0x0017#16
  | .abort _ _ => UopRow (encode i) 0x0018#16

/-- The fixed bits of a micro-instruction word: its OP code, and 0 in bits [15:14]. -/
theorem uopRow (op : BitVec 5) (seq : Seq) (tgt : MicroAddr) (fixed : Half) (h : fixed = op.setWidth 16) :
    UopRow (encodeUop op seq tgt) fixed := by
  refine ⟨_, rfl, ?_⟩
  subst h
  apply BitVec.eq_of_getLsbD_eq
  intro k hk
  have hm : k < 5 ∨ 5 ≤ k ∧ k < 14 ∨ 14 ≤ k := by omega
  rcases hm with h5 | ⟨h5, h14⟩ | h14
  · interval_cases k <;> simp
  · interval_cases k <;> simp
  · interval_cases k <;> simp

theorem init (mode : BusMode) (duty : Duty) (clk : BitVec 28) : Statement (.init mode duty clk) := by
  intro _
  refine ⟨_, rfl, ?_⟩
  apply BitVec.eq_of_getLsbD_eq
  intro k hk
  interval_cases k <;> simp

theorem write (addr : BitVec 7) (lenm1 : BitVec 8) : Statement (.write addr lenm1) := by
  intro _
  refine ⟨_, rfl, ?_⟩
  apply BitVec.eq_of_getLsbD_eq
  intro k hk
  interval_cases k <;> simp

theorem read (addr : BitVec 7) (lenm1 : BitVec 8) : Statement (.read addr lenm1) := by
  intro _
  refine ⟨_, rfl, ?_⟩
  apply BitVec.eq_of_getLsbD_eq
  intro k hk
  interval_cases k <;> simp

theorem badCommand (w : Word) : Statement (.badCommand w) := by
  intro h
  simp only [Instr.wellFormed, cmdMalformed, cmdReserved, Bool.or_eq_true, beq_iff_eq, Bool.and_eq_true,
    bne_iff_ne] at h
  rcases h with h | ⟨h1, h2⟩
  · refine .inl ⟨w, rfl, ?_⟩
    have h0 : w.getLsbD 0 = false := by
      simpa [BitVec.getLsbD_extractLsb'] using congrArg (fun x => BitVec.getLsbD x 0) h
    have h1 : w.getLsbD 1 = false := by
      simpa [BitVec.getLsbD_extractLsb'] using congrArg (fun x => BitVec.getLsbD x 1) h
    apply BitVec.eq_of_getLsbD_eq
    intro k hk
    interval_cases k <;> simp_all
  · exact .inr ⟨h1, h2, rfl⟩

theorem done (seq : Seq) (tgt : MicroAddr) : Statement (.done seq tgt) := fun _ => uopRow _ _ _ _ rfl
theorem tcuEval (seq : Seq) (tgt : MicroAddr) : Statement (.tcuEval seq tgt) := fun _ => uopRow _ _ _ _ rfl
theorem peOff (seq : Seq) (tgt : MicroAddr) : Statement (.peOff seq tgt) := fun _ => uopRow _ _ _ _ rfl
theorem selI2c (seq : Seq) (tgt : MicroAddr) : Statement (.selI2c seq tgt) := fun _ => uopRow _ _ _ _ rfl
theorem setOpts (seq : Seq) (tgt : MicroAddr) : Statement (.setOpts seq tgt) := fun _ => uopRow _ _ _ _ rfl
theorem wrFreq (seq : Seq) (tgt : MicroAddr) : Statement (.wrFreq seq tgt) := fun _ => uopRow _ _ _ _ rfl
theorem wrCcr (seq : Seq) (tgt : MicroAddr) : Statement (.wrCcr seq tgt) := fun _ => uopRow _ _ _ _ rfl
theorem wrTrise (seq : Seq) (tgt : MicroAddr) : Statement (.wrTrise seq tgt) := fun _ => uopRow _ _ _ _ rfl
theorem peOn (seq : Seq) (tgt : MicroAddr) : Statement (.peOn seq tgt) := fun _ => uopRow _ _ _ _ rfl
theorem ackOn (seq : Seq) (tgt : MicroAddr) : Statement (.ackOn seq tgt) := fun _ => uopRow _ _ _ _ rfl
theorem genStart (seq : Seq) (tgt : MicroAddr) : Statement (.genStart seq tgt) := fun _ => uopRow _ _ _ _ rfl
theorem pollSb (seq : Seq) (tgt : MicroAddr) : Statement (.pollSb seq tgt) := fun _ => uopRow _ _ _ _ rfl
theorem pollMb (seq : Seq) (tgt : MicroAddr) : Statement (.pollMb seq tgt) := fun _ => uopRow _ _ _ _ rfl
theorem txAddr (seq : Seq) (tgt : MicroAddr) : Statement (.txAddr seq tgt) := fun _ => uopRow _ _ _ _ rfl
theorem pollAddr (seq : Seq) (tgt : MicroAddr) : Statement (.pollAddr seq tgt) := fun _ => uopRow _ _ _ _ rfl
theorem clrAddr (seq : Seq) (tgt : MicroAddr) : Statement (.clrAddr seq tgt) := fun _ => uopRow _ _ _ _ rfl
theorem pollTxe (seq : Seq) (tgt : MicroAddr) : Statement (.pollTxe seq tgt) := fun _ => uopRow _ _ _ _ rfl
theorem txData (seq : Seq) (tgt : MicroAddr) : Statement (.txData seq tgt) := fun _ => uopRow _ _ _ _ rfl
theorem pollBtf (seq : Seq) (tgt : MicroAddr) : Statement (.pollBtf seq tgt) := fun _ => uopRow _ _ _ _ rfl
theorem genStop (seq : Seq) (tgt : MicroAddr) : Statement (.genStop seq tgt) := fun _ => uopRow _ _ _ _ rfl
theorem pollStop (seq : Seq) (tgt : MicroAddr) : Statement (.pollStop seq tgt) := fun _ => uopRow _ _ _ _ rfl
theorem pollRxne (seq : Seq) (tgt : MicroAddr) : Statement (.pollRxne seq tgt) := fun _ => uopRow _ _ _ _ rfl
theorem rxData (seq : Seq) (tgt : MicroAddr) : Statement (.rxData seq tgt) := fun _ => uopRow _ _ _ _ rfl
theorem nackStop (seq : Seq) (tgt : MicroAddr) : Statement (.nackStop seq tgt) := fun _ => uopRow _ _ _ _ rfl
theorem abort (seq : Seq) (tgt : MicroAddr) : Statement (.abort seq tgt) := fun _ => uopRow _ _ _ _ rfl

end Sys2Proof.Laws.TableMatch
end

