-- ==== Sys2Proof/Laws/Runs.lean ====
section
/-! SUPPORT. Runs: a run has at most one end (rule R244). -/

namespace Sys2Proof.Safety

open Sys2Proof.Machine

/-- A state reached from `s` is `s`, or is reached from the next state of `s`, which had not ended. -/
theorem RunTo.head {s t : State} (h : RunTo s t) :
    t = s ∨ ¬ RunEnded s ∧ ∃ u, step s = .next u ∧ RunTo u t := by
  induction h with
  | here => exact .inl rfl
  | onward h hn hs ih =>
    rcases ih with rfl | ⟨hn0, u, hu, hr⟩
    · exact .inr ⟨hn, _, hs, .here⟩
    · exact .inr ⟨hn0, u, hu, .onward hr hn hs⟩

/-- Of two states of one run one leads on to the other. -/
theorem RunTo.linear {s0 s t : State} (hs : RunTo s0 s) (ht : RunTo s0 t) : RunTo s t ∨ RunTo t s := by
  induction hs with
  | here => exact .inl ht
  | onward h hn hstep ih =>
    rcases ih with h1 | h1
    · rcases h1.head with rfl | ⟨_, u, hu, hr⟩
      · exact .inr (.onward .here hn hstep)
      · rw [hstep] at hu
        cases hu
        exact .inl hr
    · exact .inr (.onward h1 hn hstep)

/-- No run goes on from its end. -/
theorem RunTo.of_ended {s t : State} (h : RunTo s t) (he : RunEnded s) : t = s := by
  rcases h.head with rfl | ⟨hn, _⟩
  · rfl
  · exact absurd he hn

/-- A run has at most one end: the first state that meets the conditions. -/
theorem EndOfRun.unique {s0 s t : State} (hs : EndOfRun s0 s) (ht : EndOfRun s0 t) : s = t := by
  rcases hs.1.linear ht.1 with h | h
  · exact (h.of_ended hs.2).symm
  · exact h.of_ended ht.2

end Sys2Proof.Safety
end

