-- ==== Sys2Proof/Tests/Slice0.lean ====
section
/-! SUPPORT. The model's own tests: the WellFormed smoke test, one decoded word per constructor, single steps with the
values of spec/95_test_vectors.md section 4, and a witness for every statement that has hypotheses. -/

namespace Sys2Proof.Tests

open Sys2Proof.Machine Sys2Proof.Safety

/-! ### Helpers -/

/-- Parameters with known values: the spec's defaults and a poll budget of 3. -/
def cfg3 : Config := { pollBudget := 3#16, i2cBase := 0#32, hiBase := 0#32 }

/-- The reset state with known parameters. -/
def base : State := { State.reset with cfg := cfg3 }

/-- A running command at a micro-address. -/
def at_ (op : CmdOp) (dir : Dir) (upc : MicroAddr) (nm1 : BitVec 8) (idx : BitVec 9) : Mte :=
  { Mte.reset with busy := true, op := op, dir := dir, upc := upc, nm1 := nm1, idx := idx, addr := 0x53#7, cnt := 3#16 }

/-- A state from its MTE registers and bus controller. -/
def mk (m : Mte) (b : Bc) : State := { base with m := m, b := b }

/-- A part of the next state, if there is one. -/
def nextOf {α : Type} (o : Host.Outcome State Fault Refusal) (f : State → α) : Option α :=
  match o with
  | .next t => some (f t)
  | .fault _ => none
  | .refused _ => none

/-- Steps that end while the command still runs, with the number of the MTE's turns. -/
def follow (n : Nat) (s : State) : Option (Nat × State) :=
  match n with
  | 0 => some (0, s)
  | n + 1 =>
    match follow n s with
    | none => none
    | some (k, u) =>
      match step u with
      | .next t => if t.m.busy then some (if (nextTurn u).1 = .mte then k + 1 else k, t) else none
      | .fault _ => none
      | .refused _ => none

theorem busyRun_of_follow {n k : Nat} {s u : State} (hb : s.m.busy = true) (h : follow n s = some (k, u)) :
    BusyRun s k u := by
  induction n generalizing k u with
  | zero => cases h; exact .here hb
  | succ n ih =>
    simp only [follow] at h
    split at h
    · cases h
    · next k' u' hf =>
      split at h
      · next t hs =>
        split at h
        · next hbt => cases h; exact .onward (ih hf) hs hbt
        · cases h
      · cases h
      · cases h

/-- A run of `n` steps while the command runs, and a step that ends it with OK. -/
theorem endsOk_of_follow {n k : Nat} {s0 : State} (hb : s0.m.busy = true)
    (h : (follow n s0).map (fun r => (r.1, nextOf (step r.2) (fun t => (t.m.busy, t.m.result)))) =
      some (k, some (false, .ok))) :
    ∃ s t, BusyRun s0 k s ∧ step s = .next t ∧ t.m.busy = false ∧ t.m.result = .ok := by
  cases hf : follow n s0 with
  | none => simp [hf] at h
  | some r =>
    obtain ⟨k', s⟩ := r
    simp only [hf, Option.map_some, Option.some.injEq, Prod.mk.injEq] at h
    obtain ⟨rfl, h⟩ := h
    unfold nextOf at h
    split at h
    · next t ht =>
      simp only [Option.some.injEq, Prod.mk.injEq] at h
      exact ⟨s, t, busyRun_of_follow hb hf, ht, h.1, h.2⟩
    · cases h
    · cases h

/-! ### WellFormed: a BAD_COMMAND whose word is a legal command is refused (rules R83, R84) -/

theorem test_wellFormed_refuses_a_legal_write : (Instr.badCommand 0x00015302#32).wellFormed = false := by decide
theorem test_wellFormed_refuses_every_init : (Instr.badCommand 0xFFFFFFF1#32).wellFormed = false := by decide
theorem test_wellFormed_accepts_reserved_bits : (Instr.badCommand 0x01015303#32).wellFormed = true := by decide

/-! ### Decoding: one word per constructor (rules R81, R82, R84, R86) -/

theorem test_decode_init : decodeCmd 0b0000111101000010010000000000_0_1_01#32 = .init .fast .d2 0x0F42400#28 := by decide
theorem test_decode_write : decodeCmd 0b00000000_00000001_0_1010011_000000_10#32 = .write 0x53#7 1#8 := by decide
theorem test_decode_read : decodeCmd 0b00000000_11111111_0_1111111_000000_11#32 = .read 0x7F#7 255#8 := by decide
theorem test_decode_badCommand : decodeCmd 0x00015382#32 = .badCommand 0x00015382#32 := by decide
theorem test_decode_tcuEval : decodeUop 0b00_000000_101_00001#16 = .ok (.tcuEval .cfgchk 0#6) := by decide
theorem test_decode_peOff : decodeUop 0b00_000000_000_00010#16 = .ok (.peOff .next 0#6) := by decide
theorem test_decode_selI2c : decodeUop 0b00_000000_000_00011#16 = .ok (.selI2c .next 0#6) := by decide
theorem test_decode_setOpts : decodeUop 0b00_000000_000_00100#16 = .ok (.setOpts .next 0#6) := by decide
theorem test_decode_wrFreq : decodeUop 0b00_000000_000_00101#16 = .ok (.wrFreq .next 0#6) := by decide
theorem test_decode_wrCcr : decodeUop 0b00_000000_000_00110#16 = .ok (.wrCcr .next 0#6) := by decide
theorem test_decode_wrTrise : decodeUop 0b00_000000_000_00111#16 = .ok (.wrTrise .next 0#6) := by decide
theorem test_decode_peOn : decodeUop 0b00_000000_000_01000#16 = .ok (.peOn .next 0#6) := by decide
theorem test_decode_done : decodeUop 0b00_000000_001_00000#16 = .ok (.done .endCmd 0#6) := by decide
theorem test_decode_ackOn : decodeUop 0b00_000000_000_01001#16 = .ok (.ackOn .next 0#6) := by decide
theorem test_decode_genStart : decodeUop 0b00_000000_000_01010#16 = .ok (.genStart .next 0#6) := by decide
theorem test_decode_pollSb : decodeUop 0b00_000000_000_01011#16 = .ok (.pollSb .next 0#6) := by decide
theorem test_decode_pollMb : decodeUop 0b00_000000_000_01100#16 = .ok (.pollMb .next 0#6) := by decide
theorem test_decode_txAddr : decodeUop 0b00_000000_000_01101#16 = .ok (.txAddr .next 0#6) := by decide
theorem test_decode_pollAddr : decodeUop 0b00_000000_000_01110#16 = .ok (.pollAddr .next 0#6) := by decide
theorem test_decode_clrAddr : decodeUop 0b00_011110_100_01111#16 = .ok (.clrAddr .skip1 30#6) := by decide
theorem test_decode_pollTxe : decodeUop 0b00_000000_000_10000#16 = .ok (.pollTxe .next 0#6) := by decide
theorem test_decode_txData : decodeUop 0b00_000000_000_10001#16 = .ok (.txData .next 0#6) := by decide
theorem test_decode_pollBtf : decodeUop 0b00_001111_010_10010#16 = .ok (.pollBtf .loopw 15#6) := by decide
theorem test_decode_genStop : decodeUop 0b00_000000_000_10011#16 = .ok (.genStop .next 0#6) := by decide
theorem test_decode_pollStop : decodeUop 0b00_000000_000_10100#16 = .ok (.pollStop .next 0#6) := by decide
theorem test_decode_pollRxne : decodeUop 0b00_000000_000_10101#16 = .ok (.pollRxne .next 0#6) := by decide
theorem test_decode_rxData : decodeUop 0b00_011100_011_10110#16 = .ok (.rxData .loopr 28#6) := by decide
theorem test_decode_nackStop : decodeUop 0b00_000000_000_10111#16 = .ok (.nackStop .next 0#6) := by decide
theorem test_decode_abort : decodeUop 0b00_000000_001_11000#16 = .ok (.abort .endCmd 0#6) := by decide
theorem test_decode_reserved_op : decodeUop 0b00_000000_000_11001#16 = .error .reservedOp := by decide
theorem test_decode_reserved_seq : decodeUop 0b00_000000_110_00000#16 = .error .reservedSeq := by decide
theorem test_decode_reserved_bits : decodeUop 0b01_000000_000_00000#16 = .error .reservedBits := by decide

/-! ### Single steps: 95_test_vectors.md section 4 -/

theorem test_init_latches :
    nextOf (exec (.init .fast .d2 16000000#28) base) (fun t => (t.m.busy, t.m.clk, t.m.mode, t.m.upc)) =
      some (true, 16000000#28, .fast, 0#6) := by
  decide
theorem test_write_latches :
    nextOf (exec (.write 0x53#7 1#8) base) (fun t => (t.m.addr, t.m.dir, t.m.nm1, t.m.upc)) =
      some (0x53#7, .write, 1#8, 9#6) := by
  decide
theorem test_read_latches :
    nextOf (exec (.read 0x7F#7 255#8) base) (fun t => (t.m.addr, t.m.dir, transferLength t.m, t.m.upc)) =
      some (0x7F#7, .read, 256, 21#6) := by
  decide
theorem test_badCommand_reports :
    nextOf (exec (.badCommand 0#32) base) (fun t => (t.m.busy, statusImage t.m)) = some (false, 0x00000060#32) := by
  decide
theorem test_write_while_busy_is_refused :
    nextOf (exec (.write 0x53#7 1#8) (mk (at_ .init .write 0#6 0#8 0#9) Bc.reset)) (fun t => (t.m.op, t.refusalMark)) =
      some (.init, true) := by
  decide
theorem test_tcu_16MHz_fast :
    tcu 16000000 .fast .d2 = some { freq := 16#8, trise := 5#8, ccr := 13#12, fs := true, dutybit := false } := by
  decide
theorem test_tcuEval_accepts :
    nextOf (exec (.tcuEval .cfgchk 0#6) (mk { at_ .init .write 0#6 0#8 0#9 with clk := 16000000#28, mode := .fast } Bc.reset))
      (fun t => (cfgoutImage t.m, t.m.upc)) = some (0x900D0510#32, 1#6) := by
  decide
theorem test_tcuEval_rejects :
    nextOf (exec (.tcuEval .cfgchk 0#6) (mk { at_ .init .write 0#6 0#8 0#9 with clk := 51000000#28 } Bc.reset))
      (fun t => (t.m.result, t.m.errupc, t.m.busy, t.m.cfgvalid)) = some (.configError, 0#6, false, false) := by
  decide
theorem test_peOff_disables :
    nextOf (exec (.peOff .next 0#6) (mk (at_ .init .write 1#6 0#8 0#9) { Bc.reset with cr1 := 0x0401#16, sr1 := 0x0040#16 }))
      (fun t => (t.b.cr1, t.b.sr1, t.m.upc)) = some (0x0000#16, 0x0000#16, 2#6) := by
  decide
theorem test_peOff_while_master_faults :
    nextOf (exec (.peOff .next 0#6) (mk (at_ .init .write 1#6 0#8 0#9) { Bc.reset with cr1 := 0x0001#16, bmode := .mAddr }))
      (fun t => (t.faults.abortWithoutStop, t.m.upc)) = some (true, 1#6) := by
  decide
theorem test_selI2c_clears_smbus :
    nextOf (exec (.selI2c .next 0#6) (mk (at_ .init .write 2#6 0#8 0#9) { Bc.reset with cr1 := 0x0002#16 }))
      (fun t => (t.b.cr1, t.m.upc)) = some (0x0000#16, 3#6) := by
  decide
theorem test_setOpts_defaults :
    nextOf (exec (.setOpts .next 0#6) (mk (at_ .init .write 3#6 0#8 0#9) { Bc.reset with cr1 := 0x0080#16, fltr := 0x001F#16 }))
      (fun t => (t.b.cr1, t.b.fltr)) = some (0x0000#16, 0x0000#16) := by
  decide
theorem test_wrFreq_16 :
    nextOf (exec (.wrFreq .next 0#6) (mk { at_ .init .write 4#6 0#8 0#9 with freq := 16#8 } Bc.reset)) (fun t => t.b.cr2) =
      some 0x0010#16 := by
  decide
theorem test_wrCcr_fast :
    nextOf (exec (.wrCcr .next 0#6) (mk { at_ .init .write 5#6 0#8 0#9 with fs := true, ccr := 13#12 } Bc.reset))
      (fun t => t.b.ccr) = some 0x800D#16 := by
  decide
theorem test_wrCcr_std :
    nextOf (exec (.wrCcr .next 0#6) (mk { at_ .init .write 5#6 0#8 0#9 with ccr := 80#12 } Bc.reset))
      (fun t => t.b.ccr) = some 0x0050#16 := by
  decide
theorem test_wrTrise_5 :
    nextOf (exec (.wrTrise .next 0#6) (mk { at_ .init .write 6#6 0#8 0#9 with trise := 5#8 } Bc.reset)) (fun t => t.b.trise) =
      some 0x0005#16 := by
  decide
theorem test_peOn_enables :
    nextOf (exec (.peOn .next 0#6) (mk (at_ .init .write 7#6 0#8 0#9) Bc.reset)) (fun t => (t.b.cr1, t.m.upc)) =
      some (0x0001#16, 8#6) := by
  decide
theorem test_done_status :
    nextOf (exec (.done .endCmd 0#6) (mk (at_ .write .write 20#6 1#8 2#9) Bc.reset)) (fun t => (statusImage t.m, t.m.upc)) =
      some (0x00020010#32, 20#6) := by
  decide
theorem test_ackOn_enabled :
    nextOf (exec (.ackOn .next 0#6) (mk (at_ .read .read 21#6 0#8 0#9) { Bc.reset with cr1 := 0x0001#16 })) (fun t => t.b.cr1) =
      some 0x0401#16 := by
  decide
theorem test_ackOn_disabled :
    nextOf (exec (.ackOn .next 0#6) (mk (at_ .read .read 21#6 0#8 0#9) Bc.reset)) (fun t => t.b.cr1) = some 0x0000#16 := by
  decide
theorem test_genStart :
    nextOf (exec (.genStart .next 0#6) (mk (at_ .write .write 9#6 0#8 0#9) { Bc.reset with cr1 := 0x0001#16 }))
      (fun t => (t.b.cr1, t.m.upc, t.m.cnt)) = some (0x0101#16, 10#6, 3#16) := by
  decide
theorem test_pollSb_completes :
    nextOf (exec (.pollSb .next 0#6) (mk (at_ .write .write 10#6 0#8 0#9) { Bc.reset with sr1 := 0x0001#16 }))
      (fun t => (t.m.upc, t.b.sr1SeenSB)) = some (11#6, true) := by
  decide
theorem test_pollSb_completes_on_an_old_sb :
    nextOf (exec (.pollSb .next 0#6) (mk (at_ .write .write 10#6 0#8 0#9)
        { Bc.reset with cr1 := 0x0301#16, sr1 := 0x0001#16, sr2 := 0x0003#16, bmode := .mSb })) (fun t => t.m.upc) =
      some 11#6 := by
  decide
theorem test_pollSb_third_read_times_out :
    nextOf (exec (.pollSb .next 0#6) (mk { at_ .read .read 23#6 0#8 0#9 with cnt := 1#16 } Bc.reset))
      (fun t => (t.m.upc, t.m.errupc, t.m.err, t.m.cnt)) = some (35#6, 23#6, .timeout, 3#16) := by
  decide
theorem test_pollMb_arms :
    nextOf (exec (.pollMb .next 0#6) (mk (at_ .write .write 11#6 0#8 0#9) { Bc.reset with sr2 := 0x0003#16 }))
      (fun t => (t.m.upc, t.m.armed)) = some (12#6, true) := by
  decide
theorem test_txAddr_write :
    nextOf (exec (.txAddr .next 0#6) (mk (at_ .write .write 12#6 0#8 0#9)
        { Bc.reset with sr1 := 0x0001#16, sr1SeenSB := true, bmode := .mSb }))
      (fun t => (t.b.dr, t.b.sr1, t.b.bmode)) = some (0x00A6#16, 0x0000#16, .mAddr) := by
  decide
theorem test_txAddr_read :
    nextOf (exec (.txAddr .next 0#6) (mk (at_ .read .read 25#6 0#8 0#9) Bc.reset)) (fun t => t.b.dr) = some 0x00A7#16 := by
  decide
theorem test_pollAddr_nack :
    nextOf (exec (.pollAddr .next 0#6) (mk (at_ .write .write 13#6 0#8 0#9) { Bc.reset with sr1 := 0x0400#16 }))
      (fun t => (t.m.err, t.m.errupc)) = some (.nackReceived, 13#6) := by
  decide
theorem test_pollAddr_arbitration_first :
    nextOf (exec (.pollAddr .next 0#6) (mk { at_ .write .write 13#6 0#8 0#9 with armed := true } { Bc.reset with sr1 := 0x0600#16 }))
      (fun t => (t.m.err, t.m.errupc)) = some (.arbitrationLost, 13#6) := by
  decide
theorem test_clrAddr_write :
    nextOf (exec (.clrAddr .next 0#6) (mk (at_ .write .write 14#6 0#8 0#9)
        { Bc.reset with sr1 := 0x0002#16, sr1SeenADDR := true, bmode := .mTx })) (fun t => (t.b.sr1, t.m.upc)) =
      some (0x0080#16, 15#6) := by
  decide
theorem test_clrAddr_skips_for_one_byte :
    nextOf (exec (.clrAddr .skip1 30#6) (mk (at_ .read .read 27#6 0#8 0#9) Bc.reset)) (fun t => t.m.upc) = some 30#6 ∧
    nextOf (exec (.clrAddr .skip1 30#6) (mk (at_ .read .read 27#6 1#8 0#9) Bc.reset)) (fun t => t.m.upc) = some 28#6 := by
  decide
theorem test_pollTxe_completes :
    nextOf (exec (.pollTxe .next 0#6) (mk (at_ .write .write 15#6 0#8 0#9) { Bc.reset with sr1 := 0x0080#16, sr2 := 0x0007#16 }))
      (fun t => t.m.upc) = some 16#6 := by
  decide
theorem test_pollTxe_lost_bus :
    nextOf (exec (.pollTxe .next 0#6) (mk { at_ .write .write 15#6 0#8 0#9 with armed := true } { Bc.reset with sr1 := 0x0080#16 }))
      (fun t => (t.m.err, t.m.errupc)) = some (.arbitrationLost, 15#6) := by
  decide
theorem test_txData_sends :
    nextOf (exec (.txData .next 0#6) { mk (at_ .write .write 16#6 0#8 0#9)
        { Bc.reset with sr1 := 0x0084#16, bmode := .mTx } with buf := [(0, 0x2D#8)] })
      (fun t => (t.b.dr, t.b.sr1, t.b.txPending)) = some (0x002D#16, 0x0000#16, true) := by
  decide
theorem test_txData_unwritten_faults :
    nextOf (exec (.txData .next 0#6) { mk (at_ .write .write 16#6 1#8 1#9) Bc.reset with buf := [(0, 0x2D#8)] })
      (fun t => (t.faults.unwrittenBuf, t.m.upc)) = some (true, 16#6) := by
  decide
theorem test_pollBtf_last_byte :
    nextOf (exec (.pollBtf .loopw 15#6) (mk (at_ .write .write 17#6 1#8 1#9) { Bc.reset with sr1 := 0x0084#16, sr2 := 0x0007#16 }))
      (fun t => (t.m.idx, t.m.upc)) = some (2#9, 18#6) := by
  decide
theorem test_pollBtf_loops :
    nextOf (exec (.pollBtf .loopw 15#6) (mk (at_ .write .write 17#6 1#8 0#9) { Bc.reset with sr1 := 0x0084#16, sr2 := 0x0007#16 }))
      (fun t => (t.m.idx, t.m.upc)) = some (1#9, 15#6) := by
  decide
theorem test_genStop :
    nextOf (exec (.genStop .next 0#6) (mk { at_ .write .write 18#6 0#8 1#9 with armed := true } { Bc.reset with cr1 := 0x0001#16 }))
      (fun t => (t.b.cr1, t.m.armed)) = some (0x0201#16, false) := by
  decide
theorem test_pollStop_completes :
    nextOf (exec (.pollStop .next 0#6) (mk (at_ .write .write 19#6 0#8 1#9) { Bc.reset with cr1 := 0x0001#16 }))
      (fun t => t.m.upc) = some 20#6 := by
  decide
theorem test_pollRxne_completes :
    nextOf (exec (.pollRxne .next 0#6) (mk { at_ .read .read 28#6 1#8 0#9 with armed := true }
        { Bc.reset with sr1 := 0x0040#16, sr2 := 0x0003#16 })) (fun t => t.m.upc) = some 29#6 := by
  decide
theorem test_pollRxne_unarmed_reads_no_sr2 :
    nextOf (exec (.pollRxne .next 0#6) (mk (at_ .read .read 31#6 0#8 0#9)
        { Bc.reset with sr1 := 0x0042#16, sr1SeenADDR := true })) (fun t => (t.m.upc, t.b.sr1)) = some (32#6, 0x0042#16) := by
  decide
theorem test_rxData_stores :
    nextOf (exec (.rxData .next 0#6) (mk (at_ .read .read 32#6 1#8 1#9) { Bc.reset with dr := 0x0008#16, sr1 := 0x0040#16 }))
      (fun t => (t.buf, t.m.idx, t.b.sr1)) = some ([(1, 0x08#8)], 2#9, 0x0000#16) := by
  decide
theorem test_rxData_loopr :
    nextOf (exec (.rxData .loopr 28#6) (mk (at_ .read .read 29#6 1#8 0#9) Bc.reset)) (fun t => t.m.upc) = some 30#6 ∧
    nextOf (exec (.rxData .loopr 28#6) (mk (at_ .read .read 29#6 2#8 0#9) Bc.reset)) (fun t => t.m.upc) = some 28#6 := by
  decide
theorem test_nackStop :
    nextOf (exec (.nackStop .next 0#6) (mk { at_ .read .read 30#6 0#8 0#9 with armed := true } { Bc.reset with cr1 := 0x0401#16 }))
      (fun t => (t.b.cr1, t.m.armed)) = some (0x0201#16, false) := by
  decide
theorem test_abort_phase0 :
    nextOf (exec (.abort .endCmd 0#6) (mk { at_ .write .write 35#6 0#8 0#9 with err := .nackReceived }
        { Bc.reset with cr1 := 0x0001#16, sr1 := 0x0400#16 })) (fun t => (t.b.cr1, t.b.sr1, t.m.aph)) =
      some (0x0201#16, 0x0000#16, true) := by
  decide
theorem test_abort_phase1_status :
    nextOf (exec (.abort .endCmd 0#6) (mk { at_ .write .write 35#6 0#8 0#9 with err := .nackReceived, errupc := 13#6, aph := true }
        { Bc.reset with cr1 := 0x0001#16 })) (fun t => statusImage t.m) = some 0x00000D40#32 := by
  decide

/-! ### The caller (rule R91) -/

theorem test_initCall_keeps_28_bits_of_the_clock :
    initCall (2 ^ 28 + 5) .fast .d169 = [issue 0x0000005D#32, .wait (some .init)] := by
  decide
theorem test_wait_stays_while_busy :
    nextOf (hostTurn { mk (at_ .read .read 28#6 1#8 0#9) Bc.reset with program := [.wait (some (.read 2))] })
      (fun t => (t.program, t.hostData)) = some ([.wait (some (.read 2))], some (.word 0x00000001#32)) := by
  decide
theorem test_read_that_returns_ok_fetches :
    nextOf (hostTurn { mk { Mte.reset with result := .ok, idx := 2#9 } Bc.reset with program := [.wait (some (.read 2))] })
      (fun t => (t.callResult, t.program)) = some (some .ok, [.fetch 0, .fetch 1]) := by
  decide
theorem test_read_that_fails_fetches_nothing :
    nextOf (hostTurn { mk { Mte.reset with result := .nackReceived } Bc.reset with program := [.wait (some (.read 2))] })
      (fun t => (t.callResult, t.program)) = some (some .nackReceived, []) := by
  decide
theorem test_init_returns_configError :
    nextOf (hostTurn { mk { Mte.reset with result := .configError } Bc.reset with program := [.wait (some .init)] })
      (fun t => t.callResult) = some (some .configError) := by
  decide
theorem test_fetch_fills_the_callers_buffer :
    nextOf (hostTurn { base with buf := [(1, 0x5A#8)], program := [.fetch 1] }) (fun t => t.callerBuffer) =
      some [(1, 0x5A#8)] := by
  decide

/-! ### A placed word is the next instruction to run -/

theorem test_withFetchWord_micro :
    nextOf (step (base.withFetchWord 16 0x0008)) (fun t => (t.b.cr1, t.m.upc)) = some (0x0001#16, 1#6) := by decide
theorem test_withFetchWord_command :
    nextOf (step (base.withFetchWord 32 0x00015302)) (fun t => (t.m.busy, t.m.upc)) = some (true, 9#6) := by decide

/-! ### Witnesses: states and operands that meet the hypotheses of each statement -/

/-- The bus controller enabled. -/
def on : Bc := { Bc.reset with cr1 := 0x0001#16 }

/-- A faulted state. -/
def faulted : State := base.recordFault .unwrittenBuf

/-- A poll of WRITE at POLL_TXE, in a state that meets the invariants. -/
def atTxe : State :=
  { mk { at_ .write .write 15#6 0#8 0#9 with armed := true }
      { on with bmode := .mTx, sr1 := 0x0080#16, sr2 := 0x0007#16 } with
    buf := [(0, 0x2D#8)], schedule := [.mte] }

/-- Witness for Obligations.DecodeOfEncodeGivesTheInstruction. -/
theorem witness_DecodeOfEncode :
    Instr.wellFormed (.badCommand 0xFFFFFFFE#32) = true ∧ Instr.wellFormed (.init .fast .d169 0xFFFFFFF#28) = true := by
  decide
/-- Witness for Obligations.EveryWordHasItsOneMeaning. -/
theorem witness_MicroWords :
    (0x3FB8#16).extractLsb' 14 2 = 0#2 ∧ ((0x3FB8#16).extractLsb' 5 3).toNat < 6 ∧
      ((0x3FB8#16).extractLsb' 0 5).toNat ≤ 0x18 ∧ decodeUop 0x3FB8#16 = .ok (.abort .cfgchk 63#6) := by
  decide
/-- Witness for Obligations.StepRunsTheDecodedMicroInstruction. -/
theorem witness_StepRunsMicro :
    ¬ Faulted atTxe ∧ atTxe.schedule = [.mte] ∧ atTxe.m.busy = true ∧ atTxe.rom[atTxe.m.upc.toNat]? = some 0x0010#16 ∧
      decodeUop 0x0010#16 = .ok (.pollTxe .next 0#6) := by
  unfold Faulted; decide
/-- Witness for Obligations.StepRunsTheHostsNextAccess, every clause. -/
theorem witness_StepRunsHost :
    let idle : State := { base with schedule := [.host], buf := [(255, 7#8)] }
    let busy : State := { idle with m := at_ .read .read 28#6 0#8 0#9 }
    ¬ Faulted idle ∧ ¬ Faulted busy ∧ idle.schedule = [.host] ∧ idle.program = [] ∧ idle.m.busy = false ∧
      busy.m.busy = true ∧ idle.buf.read 255 = some 7#8 ∧ idle.buf.read 254 = none ∧ 255 < 256 ∧
      ({ idle with program := [.access (.write .word 0x000 0x00015302#32)] } : State).program =
        [.access (.write .word 0x000 0x00015302#32)] ∧
      ({ idle with program := [.wait (some (.read 256))] } : State).program = [.wait (some (.read 256))] ∧
      Call.read 256 ≠ .init ∧ ({ idle with program := [.wait none] } : State).program = [.wait none] ∧
      ({ idle with program := [.wait (some .init)] } : State).program = [.wait (some .init)] ∧
      ({ idle with program := [.fetch 255] } : State).program = [.fetch 255] := by
  unfold Faulted; decide
/-- Witness for Obligations.FaultedStateTakesNoStep. -/
theorem witness_FaultedState :
    Faulted faulted ∧ Faulted (base.recordFault .abortWithoutStop) := by
  unfold Faulted; decide
/-- Witness for Obligations.StepRunsTheDecodedMicroInstruction, its last clause. -/
theorem witness_IdleMteAndReservedWord :
    base.m.busy = false ∧
    let s : State := { mk (at_ .init .write 0#6 0#8 0#9) Bc.reset with rom := [0x00C0#16] }
    s.m.busy = true ∧ s.rom[s.m.upc.toNat]? = some 0x00C0#16 ∧ decodeUop 0x00C0#16 = .error .reservedSeq := by
  decide
/-- Witness for Obligations.CmdWriteFollowsTheDescriptor. -/
theorem witness_CmdWrite :
    atTxe.m.busy = true ∧ base.m.busy = false ∧ (0x00000000#32).extractLsb' 0 2 = 0#2 ∧
      ((0x0001D302#32).extractLsb' 0 2 ≠ 1#2 ∧ (0x0001D302#32).getLsbD 15 = true) ∧
      ((0x01015303#32).extractLsb' 0 2 ≠ 1#2 ∧ (0x01015303#32).extractLsb' 24 8 ≠ 0#8) ∧
      ((0x00015306#32).extractLsb' 0 2 ≠ 1#2 ∧ (0x00015306#32).extractLsb' 2 6 ≠ 0#6) ∧
      (0xFFFFFFFD#32).extractLsb' 0 2 = 1#2 ∧
      ((0x00FF7F02#32).extractLsb' 0 2 = 2#2 ∧ (0x00FF7F02#32).extractLsb' 2 6 = 0#6 ∧
        (0x00FF7F02#32).getLsbD 15 = false ∧ (0x00FF7F02#32).extractLsb' 24 8 = 0#8) ∧
      ((0x00FF7F03#32).extractLsb' 0 2 = 3#2 ∧ (0x00FF7F03#32).extractLsb' 2 6 = 0#6 ∧
        (0x00FF7F03#32).getLsbD 15 = false ∧ (0x00FF7F03#32).extractLsb' 24 8 = 0#8) := by
  decide
/-- Witness for Obligations.CommandsIdleAndBusy. -/
theorem witness_CommandsIdleAndBusy :
    base.m.busy = false ∧ atTxe.m.busy = true := by
  decide
/-- Witness for Obligations.TcuGivesTheFormulas and TcuEvalLatchesOrRejects. -/
theorem witness_TcuGivesTheFormulas :
    (tcu 2000000 .std .d2).isSome = true ∧ (tcu 50999999 .fast .d169).isSome = true ∧ tcu 51000000 .std .d2 = none ∧
      (tcu 10000000 .fast .d169).isSome = true ∧ tcu 9999999 .fast .d169 = none ∧ base.m.upc = 0#6 ∧
      tcu base.m.clk.toNat base.m.mode base.m.duty = none ∧
      (tcu ({ base.m with clk := 2000000#28 } : Mte).clk.toNat base.m.mode base.m.duty).isSome = true := by
  decide
/-- Witness for Obligations.Cr1WritesWhileEnabled, UnmodelledAccessesAreRefused (ABORT's phase 0 too) and ControlRegisterWrites. -/
theorem witness_Cr1WritesWhileEnabled :
    flag on.cr1 15 = false ∧ flag on.cr1 0 = true ∧ flag 0x8001#16 15 = true ∧ on.bmode = .idle ∧
      ({ Bc.reset with cr1 := 0x8000#16, bmode := .mSb } : Bc).bmode.isMaster = true ∧
      flag ({ Bc.reset with cr1 := 0x8000#16, bmode := .mSb } : Bc).cr1 15 = true ∧ base.m.aph = false ∧
      (∃ off, off = 0x08 ∨ off = 0x0C ∨ 0x28 ≤ off ∨ off % 4 ≠ 0) := by
  exact ⟨by decide, by decide, by decide, rfl, by decide, by decide, rfl, 0x28, by decide⟩
/-- Witness for Obligations.Cr1WritesWithPeZero. -/
theorem witness_Cr1WritesWithPeZero :
    flag Bc.reset.cr1 15 = false ∧ flag Bc.reset.cr1 0 = false ∧ Bc.reset.bmode = .idle := by
  decide
/-- Witness for Obligations.PeZeroWhileMasterRecordsTheFault. -/
theorem witness_PeZeroWhileMaster :
    let b : Bc := { Bc.reset with bmode := .mNacked }
    flag b.cr1 15 = false ∧ flag b.cr1 0 = false ∧ b.bmode ≠ .idle ∧ b.bmode ≠ .lost ∧ base.m.aph = false := by
  decide
/-- Witness for Obligations.TxAddrAndTxDataWriteDr. -/
theorem witness_TxDataForms :
    atTxe.buf.read atTxe.m.idx.toNat = some 0x2D#8 ∧ base.buf.read base.m.idx.toNat = none := by
  decide
/-- Witness for Obligations.TxAddrAndTxDataWriteDr and StatusAndDataReadEffects, the three cases of a DR write. -/
theorem witness_DrWriteForms :
    let b1 : Bc := { on with sr1 := 0x0001#16, sr1SeenSB := true, bmode := .mSb }
    (flag b1.sr1 sr1SB = true ∧ b1.sr1SeenSB = true) ∧ (atTxe.b.bmode = .mTx ∧ flag atTxe.b.sr1 sr1TXE = true) ∧
      ¬ (flag on.sr1 sr1SB = true ∧ on.sr1SeenSB = true) ∧ ¬ (on.bmode = .mTx ∧ flag on.sr1 sr1TXE = true) := by
  decide
/-- Witness for Obligations.ClrAddrReadsSr2. -/
theorem witness_ClrAddr :
    let b : Bc := { on with sr1 := 0x0002#16, sr1SeenADDR := true }
    (flag b.sr1 1 = true ∧ b.sr1SeenADDR = true) ∧ ¬ (flag on.sr1 1 = true ∧ on.sr1SeenADDR = true) := by
  decide
/-- Witness for Obligations.RxDataStoresOneByte. -/
theorem witness_RxData :
    (255#9).toNat < 256 ∧ 256 ≤ (256#9).toNat := by
  decide
/-- Witness for Obligations.DoneEndsTheCommandOk. -/
theorem witness_DoneEnds :
    let m := at_ .write .write 20#6 1#8 2#9
    m.idx = 2#9 ∧ m.nostop = false := by
  decide
/-- Witness for Obligations.PollsWithChecks. -/
theorem witness_PollsWithChecks :
    atTxe.m.armed = true ∧ base.m.armed = false := by
  decide
/-- Witness for Obligations.PollIterationStaysRaisesOrCompletes. -/
theorem witness_PollsReach :
    Instr.pollStop .next 0#6 ∈ [Instr.pollSb .next 0#6, .pollMb .next 0#6, .pollAddr .next 0#6, .pollTxe .next 0#6,
      .pollBtf .next 0#6, .pollRxne .next 0#6, .pollStop .next 0#6] := by
  decide
/-- Witness for Obligations.BudgetRuleAndRaise. -/
theorem witness_BudgetRuleAndRaise :
    ({ cfg3 with pollBudget := 0#16 } : Config).pollBudget = 0#16 ∧ cfg3.pollBudget ≠ 0#16 ∧ atTxe.m.cnt ≠ 1#16 ∧
      ({ atTxe.m with cnt := 1#16 } : Mte).cnt = 1#16 ∧ atTxe.rom[35]? = some 0x0038#16 ∧ atTxe.m.upc ≠ 35#6 := by
  decide
/-- Witness for Obligations.AbortAssertsStop. -/
theorem witness_AbortAssertsStop :
    base.m.aph = false ∧ flag on.cr1 15 = false ∧ flag on.cr1 0 = true ∧ flag Bc.reset.cr1 0 = false ∧ Bc.reset.bmode = .idle := by
  decide
/-- Witness for Obligations.AbortEndsTheCommandWithItsError. -/
theorem witness_AbortEnds :
    let m : Mte := { at_ .write .write 35#6 0#8 0#9 with aph := true }
    m.aph = true ∧ flag 0x0001#16 9 = false ∧ flag 0x0201#16 9 = true ∧ cfg3.pollBudget ≠ 0#16 ∧ m.cnt ≠ 1#16 ∧
      ({ m with cnt := 1#16 } : Mte).cnt = 1#16 ∧ ({ cfg3 with pollBudget := 0#16 } : Config).pollBudget = 0#16 := by
  decide
/-- Witness for Obligations.SeqMovesTheMicroPc. -/
theorem witness_SeqMoves :
    base.rom = romWords := by
  rfl
/-- Witness for Obligations.StartGeneration. -/
theorem witness_StartGeneration :
    let b : Bc := { on with cr1 := 0x0101#16 }
    (flag b.cr1 0 = true ∧ flag b.cr1 8 = true ∧ b.bmode = .idle ∧ flag b.sr2 1 = false) ∧ flag on.cr1 8 = false := by
  decide
/-- Witness for Obligations.AddressPhase. -/
theorem witness_AddressPhase :
    let b : Bc := { on with bmode := .mAddr }
    b.bmode = .mAddr ∧ cfg3.multiMaster = true ∧ on.bmode ≠ .mAddr ∧ ({ cfg3 with multiMaster := false } : Config).multiMaster = false := by
  decide
/-- Witness for Obligations.TransmittedDataByte. -/
theorem witness_TransmittedDataByte :
    let b : Bc := { on with bmode := .mTx, txPending := true }
    (b.bmode = .mTx ∧ b.txPending = true ∧ cfg3.multiMaster = true) ∧ on.bmode ≠ .mTx ∧ on.txPending = false ∧
      ({ cfg3 with multiMaster := false } : Config).multiMaster = false := by
  decide
/-- Witness for Obligations.ReceivedDataByte. -/
theorem witness_ReceivedDataByte :
    let s : State := mk (at_ .read .read 28#6 1#8 0#9) { on with bmode := .mRx }
    (s.b.bmode = .mRx ∧ flag s.b.sr1 1 = false ∧ flag s.b.sr1 6 = false ∧
      ¬ (s.cfg.lastByteWindowMet = true ∧ s.m.busy = true ∧ s.m.upc = 30#6)) ∧
      flag 0x0201#16 9 = true ∧ flag s.b.cr1 9 = false ∧ flag 0x0401#16 10 = true ∧ flag s.b.cr1 10 = false ∧
      base.b.bmode ≠ .mRx := by
  decide
/-- Witness for Obligations.StopSteps. -/
theorem witness_StopSteps :
    let b : Bc := { on with cr1 := 0x0201#16 }
    flag b.cr1 9 = true ∧ b.bmode = .idle ∧ ({ b with bmode := .mSb } : Bc).bmode = .mSb ∧
      ({ b with bmode := .mTx } : Bc).txPending = false ∧ ({ b with bmode := .mRx, sr1 := 0x0002#16 } : Bc).bmode = .mRx ∧
      flag ({ b with bmode := .mRx, sr1 := 0x0002#16 } : Bc).sr1 1 = true ∧ flag on.cr1 9 = false := by
  decide
/-- Witness for Obligations.OtherMasterClaimsAndReleases. -/
theorem witness_OtherMaster :
    (cfg3.multiMaster = true ∧ on.bmode = .idle ∧ flag on.sr2 1 = false) ∧
      (({ on with otherBusy := true, sr2 := 0x0002#16, bmode := .lost } : Bc).otherBusy = true) ∧ on.otherBusy = false := by
  decide
/-- Witness for Obligations.HostWritesAndReadsBuf. -/
theorem witness_HostBuf :
    255 < 256 ∧ base.m.busy = false ∧ base.buf.read 255 = none ∧ Memory.read [(255, 7#8)] 255 = some 7#8 ∧
      atTxe.m.busy = true := by
  decide
/-- Witness for Obligations.HostAccessesThatAreRefused. -/
theorem witness_HostRefused :
    (0x00C ≤ 0x0FF ∧ 0x0FF < 0x100) ∧ 0x200 ≤ 0x200 ∧ (0x00B < 0x00C ∧ 0x00B % 4 ≠ 0) ∧ (0x008 < 0x00C ∧ Width.half ≠ .word) ∧
      (0x100 ≤ 0x1FF ∧ 0x1FF < 0x200 ∧ Width.word ≠ .byte) := by
  decide
/-- Witness for Obligations.CallsExpandToHostAccesses, at the ends of each range. -/
theorem witness_Calls :
    (127 ≤ 127 ∧ 1 ≤ [7#8].length ∧ [7#8].length ≤ 256) ∧
      (1 ≤ (List.replicate 256 7#8).length ∧ (List.replicate 256 7#8).length ≤ 256) ∧ (1 ≤ 256 ∧ 256 ≤ 256) ∧ 127 < 128 ∧
      ([] : List Byte).length = 0 ∧ 256 < (List.replicate 257 7#8).length ∧ 256 < 257 := by
  simp only [List.length_replicate]; decide
/-- Witness for Obligations.MicroOpsChangeOnlyTheirOwn. -/
theorem witness_MicroOps :
    isMicro (.pollTxe .next 0#6) = true ∧ (nextOf (exec (.pollTxe .next 0#6) atTxe) (fun t => t.m.upc)).isSome = true := by
  decide
/-- Witness for Obligations.BusStepsLeaveTheMteAlone. -/
theorem witness_BusSteps :
    Turn.bcStart ≠ .host ∧ Turn.bcStart ≠ .mte := by
  decide

/-- `atTxe` meets the invariants, and its next step is a step of the MTE to a next state in which WRITE still runs. -/
theorem witness_invariants :
    BusInv atTxe ∧ MteInv atTxe ∧ QuietBits atTxe ∧ InitDisabled atTxe ∧ AbortReleases atTxe ∧
      Memory.wf atTxe.buf = true ∧ atTxe.m.op = .write ∧ flag atTxe.b.cr1 15 = false ∧ (nextTurn atTxe).1 = .mte ∧
      atTxe.cfg.pollBudget ≠ 0#16 ∧ ∃ t, step atTxe = .next t ∧ t.m.busy = true ∧ t.faults = atTxe.faults := by
  refine ⟨?_, ?_, ?_, ?_, ?_, by decide, rfl, by decide, rfl, by decide, _, rfl, by decide, by decide⟩
  · unfold BusInv; decide
  · exact ⟨rfl, by decide, by unfold placeOk PlaceAt; decide, by decide, by decide, by decide, by decide, by decide⟩
  · unfold QuietBits; decide
  · unfold InitDisabled; decide
  · unfold AbortReleases; decide

/-- INIT at SET_OPTS: a step that writes FLTR, with the invariants of Obligations.TimingWritesOnlyWhileDisabled. -/
theorem witness_TimingWrites :
    let s : State := { mk (at_ .init .write 3#6 0#8 0#9) { Bc.reset with fltr := 0x001F#16 } with schedule := [.mte] }
    MteInv s ∧ InitDisabled s ∧ (nextTurn s).1 = .mte ∧ s.m.busy = true ∧
      ∃ t, step s = .next t ∧ t.b.fltr ≠ s.b.fltr := by
  refine ⟨?_, ?_, rfl, rfl, _, rfl, by decide⟩
  · exact ⟨rfl, by decide, by unfold placeOk PlaceAt; decide, by decide, by decide, by decide, by decide, by decide⟩
  · unfold InitDisabled; decide

/-- ABORT's last step, for Obligations.CommandsThatEndOnStopSentReleaseTheBus and Obligations.CommandsEndOnlyAtTheirEnds. -/
theorem witness_AbortEnds_step :
    let s : State := { mk { at_ .write .write 35#6 0#8 0#9 with err := .nackReceived, aph := true } on with
      schedule := [.mte] }
    MteInv s ∧ AbortReleases s ∧ ¬ Faulted s ∧ (nextTurn s).1 = .mte ∧ s.m.aph = true ∧ s.m.busy = true ∧
      flag s.b.cr1 9 = false ∧ ∃ t, step s = .next t ∧ t.m.busy = false ∧ t.m.nostop = false := by
  refine ⟨?_, ?_, ?_, rfl, rfl, rfl, rfl, _, rfl, by decide, by decide⟩
  · exact ⟨rfl, by decide, by unfold placeOk PlaceAt; decide, by decide, by decide, by decide, by decide, by decide⟩
  · unfold AbortReleases; decide
  · unfold Faulted; decide

/-- DONE's step of a WRITE, for Obligations.CommandsThatEndOnStopSentReleaseTheBus. -/
theorem witness_DoneReleases :
    let s : State := { mk (at_ .write .write 20#6 0#8 1#9) on with schedule := [.mte] }
    MteInv s ∧ BusInv s ∧ TransferReleases s ∧ s.m.op = .write ∧ ∃ t, CommandEnds s t ∧ t.m.result = .ok := by
  refine ⟨?_, ?_, ?_, rfl, _, ⟨rfl, rfl, rfl, by decide⟩, by decide⟩
  · exact ⟨rfl, by decide, by unfold placeOk PlaceAt; decide, by decide, by decide, by decide, by decide, by decide⟩
  · unfold BusInv; decide
  · unfold TransferReleases; decide

/-- A bus controller that a given-up ABORT left: not addressed (M_NACKED), its STOP still pending. -/
def oldStop : Bc := { on with cr1 := 0x0201#16, sr2 := 0x0007#16, bmode := .mNacked }

/-- The clauses of Obligations.EveryCommandReleasesTheBusUnlessAcceptedInMSb: DONE's step of a WRITE, and a read of
POLL_SB, which waits while an old STOP is pending. -/
theorem witness_CommandsRelease :
    (let s : State := { mk (at_ .write .write 20#6 0#8 1#9) on with schedule := [.mte] }
     MteInv s ∧ BusInv s ∧ ReleaseInv s ∧ s.m.op = .write ∧ ∃ t, CommandEnds s t ∧ t.m.nostop = false) ∧
    (let s : State := { mk (at_ .write .write 10#6 0#8 0#9)
        { on with cr1 := 0x0301#16, sr2 := 0x0007#16, bmode := .mNacked } with schedule := [.mte] }
     MteInv s ∧ BusInv s ∧ ReleaseInv s ∧ s.m.busy = true ∧ s.m.upc = 10#6 ∧ s.b.bmode ≠ .mSb ∧
      (nextTurn s).1 = .mte ∧ ∃ t, step s = .next t ∧ t.m.upc = 10#6 ∧
        ¬ (s.m.busy = false ∧ t.m.busy = true ∧ t.m.op ≠ .init ∧ s.b.bmode = .mSb)) ∧
    (let s : State := { mk (at_ .write .write 10#6 0#8 0#9) { on with cr1 := 0x0101#16 } with schedule := [.bcStart] }
     s.b.bmode ≠ .mSb ∧ ∃ t, step s = .next t ∧ t.b.bmode = .mSb) := by
  refine ⟨⟨?_, ?_, ?_, rfl, _, ⟨rfl, rfl, rfl, by decide⟩, by decide⟩,
    ⟨?_, ?_, ?_, rfl, rfl, by decide, rfl, _, rfl, by decide, by decide⟩, by decide, _, rfl, by decide⟩
  all_goals first
    | exact ⟨rfl, by decide, by unfold placeOk PlaceAt; decide, by decide, by decide, by decide, by decide, by decide⟩
    | exact ⟨by decide, by unfold TransferReleases; decide, by unfold AbortReleases; decide⟩
    | (unfold BusInv; decide)

/-- The acceptance of a WRITE with an old STOP pending and no old SB, for
Obligations.CommandsThatEndOnStopSentReleaseTheBus. -/
theorem witness_AcceptanceWithOldStop :
    let s : State := { mk { Mte.reset with nostop := true } oldStop with
      schedule := [.host], program := [issue 0x00005302#32] }
    MteInv s ∧ BusInv s ∧ TransferReleases s ∧ (flag s.b.cr1 8 = false ∧ s.b.bmode ≠ .mSb) ∧ flag s.b.cr1 9 = true ∧
      ∃ t, step s = .next t ∧ t.m.busy = true ∧ t.m.op = .write := by
  refine ⟨?_, ?_, ?_, by decide, by decide, _, rfl, by decide, by decide⟩
  · exact ⟨rfl, by decide, by unfold placeOk PlaceAt; decide, by decide, by decide, by decide, by decide, by decide⟩
  · unfold BusInv; decide
  · unfold TransferReleases; decide

/-- DONE's step and a rejecting TCU_EVAL's, for Obligations.CommandsEndOnlyAtTheirEnds. -/
theorem witness_CommandsEnd :
    (let s : State := { mk (at_ .write .write 20#6 0#8 1#9) on with schedule := [.mte] }
     MteInv s ∧ s.m.busy = true ∧ ∃ t, step s = .next t ∧ t.m.busy = false) ∧
    (let s : State := { mk (at_ .init .write 0#6 0#8 0#9) on with schedule := [.mte] }
     MteInv s ∧ s.m.busy = true ∧ ∃ t, step s = .next t ∧ t.m.busy = false) := by
  refine ⟨⟨?_, rfl, _, rfl, by decide⟩, ?_, rfl, _, rfl, by decide⟩
  · exact ⟨rfl, by decide, by unfold placeOk PlaceAt; decide, by decide, by decide, by decide, by decide, by decide⟩
  · exact ⟨rfl, by decide, by unfold placeOk PlaceAt; decide, by decide, by decide, by decide, by decide, by decide⟩

/-- A WRITE of one byte just accepted, with the turns of a run that ends with OK. -/
def writeStart : State :=
  { mk (at_ .write .write 9#6 0#8 0#9) on with
    buf := [(0, 0x2D#8)]
    schedule := [.mte, .bcStart, .mte, .mte, .mte, .bcAddr .ack, .mte, .mte, .mte, .mte, .bcTx .ack, .mte, .mte, .bcStop,
      .mte, .mte] }

/-- Witness for Obligations.WriteThatReturnsOkEmitsItsTrace. -/
theorem witness_WriteHeadline :
    FreshTransfer writeStart ∧ writeStart.m.op = .write ∧ writeStart.m.upc = 9#6 ∧
      ∃ s t, BusyRun writeStart 11 s ∧ step s = .next t ∧ t.m.busy = false ∧ t.m.result = .ok :=
  ⟨⟨⟨rfl, by decide, by unfold placeOk PlaceAt; decide, by decide, by decide, by decide, by decide, by decide⟩,
    by unfold BusInv; decide, rfl, rfl, rfl⟩, rfl, rfl, endsOk_of_follow (n := 15) rfl (by decide)⟩

/-- A WRITE of one byte just accepted while the STOP of a given-up ABORT is pending, with the turns of a run that ends
with OK. -/
def writeAfterStop : State :=
  { writeStart with b := oldStop, schedule := .mte :: .bcStop :: writeStart.schedule.tail }

/-- Witness for Obligations.WriteWithAnOldStopPendingEmitsItsTrace. -/
theorem witness_WriteWithOldStop :
    AcceptedTransfer writeAfterStop ∧ writeAfterStop.m.op = .write ∧ writeAfterStop.m.upc = 9#6 ∧
      flag writeAfterStop.b.cr1 9 = true ∧
      ∃ s t, BusyRun writeAfterStop 11 s ∧ step s = .next t ∧ t.m.busy = false ∧ t.m.result = .ok :=
  ⟨⟨⟨rfl, by decide, by unfold placeOk PlaceAt; decide, by decide, by decide, by decide, by decide, by decide⟩,
    by unfold BusInv; decide, rfl, by decide⟩, rfl, rfl, rfl, endsOk_of_follow (n := 16) rfl (by decide)⟩

/-- A READ of one byte just accepted, with the turns of a run that ends with OK. -/
def readStart : State :=
  { mk (at_ .read .read 21#6 0#8 0#9) on with
    schedule := [.mte, .mte, .bcStart, .mte, .mte, .mte, .bcAddr .ack, .mte, .mte, .mte, .bcRx 0x5A#8, .mte, .mte, .mte,
      .mte] }

/-- Witness for Obligations.ReadThatReturnsOkNacksOnlyTheLastByte. -/
theorem witness_ReadHeadline :
    FreshTransfer readStart ∧ readStart.m.op = .read ∧ readStart.m.upc = 21#6 ∧
      readStart.cfg.lastByteWindowMet = true ∧ flag readStart.b.sr1 6 = false ∧
      ∃ s t, BusyRun readStart 11 s ∧ step s = .next t ∧ t.m.busy = false ∧ t.m.result = .ok :=
  ⟨⟨⟨rfl, by decide, by unfold placeOk PlaceAt; decide, by decide, by decide, by decide, by decide, by decide⟩,
    by unfold BusInv; decide, rfl, rfl, rfl⟩, rfl, rfl, rfl, rfl, endsOk_of_follow (n := 14) rfl (by decide)⟩

/-- An INIT just accepted. -/
def initStart : State := { mk (at_ .init .write 0#6 0#8 0#9) Bc.reset with schedule := [.mte] }

/-- Witness for Obligations.CommandsEndWithinTheStepBound: an INIT, a WRITE and a READ, each at its acceptance. -/
theorem witness_StepBound :
    (MteInv initStart ∧ initStart.cfg.pollBudget ≠ 0#16 ∧ flag initStart.b.cr1 15 = false ∧
      (initStart.m.op = .init ∧ initStart.m.upc = 0#6) ∧ BusyRun initStart 0 initStart ∧ ¬ Faulted initStart) ∧
    (MteInv writeStart ∧ writeStart.cfg.pollBudget ≠ 0#16 ∧ flag writeStart.b.cr1 15 = false ∧
      (writeStart.m.op = .write ∧ writeStart.m.upc = 9#6) ∧ BusyRun writeStart 0 writeStart ∧ ¬ Faulted writeStart) ∧
    (MteInv readStart ∧ readStart.cfg.pollBudget ≠ 0#16 ∧ flag readStart.b.cr1 15 = false ∧
      (readStart.m.op = .read ∧ readStart.m.upc = 21#6) ∧ BusyRun readStart 0 readStart ∧ ¬ Faulted readStart) := by
  refine ⟨⟨?_, by decide, by decide, by decide, .here rfl, ?_⟩, ⟨?_, by decide, by decide, by decide, .here rfl, ?_⟩,
    ?_, by decide, by decide, by decide, .here rfl, ?_⟩
  all_goals first
    | (unfold Faulted; decide)
    | exact ⟨rfl, by decide, by unfold placeOk PlaceAt; decide, by decide, by decide, by decide, by decide, by decide⟩

/-- Witness for Obligations.EveryMteStepUsesUpTheBound: the first step of a WRITE. -/
theorem witness_StepsLeft :
    MteInv writeStart ∧ writeStart.cfg.pollBudget ≠ 0#16 ∧ writeStart.m.busy = true ∧ flag writeStart.b.cr1 15 = false ∧
      (nextTurn writeStart).1 = .mte ∧ ∃ t, step writeStart = .next t ∧ t.m.busy = true ∧ t.faults = writeStart.faults :=
  ⟨⟨rfl, by decide, by unfold placeOk PlaceAt; decide, by decide, by decide, by decide, by decide, by decide⟩,
    by decide, rfl, by decide, rfl, _, rfl, by decide, by decide⟩

/-- A run that has ended: the reset state with known parameters, an end of the run from itself (rule R244). -/
theorem witness_EndOfRun : EndOfRun base base := by
  refine ⟨.here, rfl, rfl, by decide, ?_⟩
  unfold Faulted
  decide

end Sys2Proof.Tests
end

/-! The bus-controller registers: the shared flag updates as masks, and what an access of a register does (rules R31 to
R43). -/

namespace Sys2Proof.Machine

open Sys2Proof.Safety

/-! ### Flag updates as masks -/

/-- A register with one bit cleared, then set to `v`. -/
theorem setFlag_eq_mask (w : Half) (n : Nat) (v : Bool) :
    setFlag w n v = (w &&& ~~~ BitVec.twoPow 16 n) ||| (if v then BitVec.twoPow 16 n else 0#16) := by
  cases v
  · simp [setFlag]
  · apply BitVec.eq_of_getLsbD_eq
    intro k hk
    simp only [setFlag, if_true, BitVec.getLsbD_or, BitVec.getLsbD_and, BitVec.getLsbD_not, BitVec.getLsbD_twoPow, hk]
    cases w.getLsbD k <;> simp
    omega

/-- SR2 when the block stops being master: MSL and TRA cleared, BUSY as the environment holds the bus (rule R40). -/
theorem sr2_released (w : Half) (other : Bool) :
    setFlag (setFlag (setFlag w sr2MSL false) sr2TRA false) sr2BUSY other =
      (w &&& 0xFFF8#16) ||| (if other then 0x0002#16 else 0x0000#16) := by
  rw [setFlag_eq_mask, setFlag_false, setFlag_false, BitVec.and_assoc, BitVec.and_assoc]
  rfl

/-- CR1 after a write that disables the controller: START, STOP and ACK are forced to 0 (rule R40). -/
theorem cr1_disabled (v : Half) :
    setFlag (setFlag (setFlag (v &&& cr1Bits) cr1START false) cr1STOP false) cr1ACK false = v &&& 0xB8FB#16 := by
  simp only [setFlag_false, BitVec.and_assoc]
  rfl

/-- The effects of PE = 0 by the bits of the registers. -/
theorem Bc.disable_eq_disabledBc (b : Bc) (v : Half) : b.disable v = disabledBc b (v &&& 0xB8FB#16) := by
  rw [Bc.disable, cr1_disabled, sr2_released]
  rfl

/-- The clear of ADDR by the bits of SR1. -/
theorem Bc.clearAddr_eq (b : Bc) :
    b.clearAddr = { b with
      sr1 := (b.sr1 &&& 0xFFFD#16) ||| (if b.bmode = .mTx then 0x0080#16 else 0x0000#16), sr1SeenADDR := false } := by
  unfold Bc.clearAddr
  split
  · rfl
  · rw [BitVec.or_zero]; rfl

theorem BMode.isMaster_eq_false (m : BMode) : m.isMaster = false ↔ m = .idle ∨ m = .lost := by
  cases m <;> simp [BMode.isMaster]

theorem BMode.isMaster_eq_true (m : BMode) : m.isMaster = true ↔ m ≠ .idle ∧ m ≠ .lost := by
  cases m <;> simp [BMode.isMaster]

/-- The implemented bits of a DR value are its low byte, widened. -/
theorem and_drBits (v : Half) : v &&& drBits = (v.extractLsb' 0 8).setWidth 16 := by
  apply BitVec.eq_of_toNat_eq
  have h := Nat.and_two_pow_sub_one_eq_mod v.toNat 8
  simp only [drBits, BitVec.toNat_and, BitVec.toNat_ofNat, BitVec.toNat_setWidth, BitVec.extractLsb'_toNat,
    Nat.shiftRight_zero] at h ⊢
  norm_num at h ⊢
  omega

/-- What SET_OPTS writes to FLTR, by its two fields (rule R119). -/
theorem fltrWord_and_fltrBits (c : Config) :
    fltrWord c &&& fltrBits = (if c.anfOffCfg then 0x0010#16 else 0x0000#16) ||| c.dnfCfg.setWidth 16 := by
  have fields : ∀ (anf : Bool) (dnf : BitVec 4),
      ((0#11 ++ BitVec.ofBool anf ++ dnf : Half) &&& fltrBits) =
        (if anf then 0x0010#16 else 0x0000#16) ||| dnf.setWidth 16 := by decide
  exact fields c.anfOffCfg c.dnfCfg

/-! ### CR1 writes (rules R40, R43) -/

theorem writeCr1_refuse {v : Half} {s : State} (h : flag v cr1SWRST = true) : writeCr1 v s = .refuse := by
  simp [writeCr1, h]

theorem writeCr1_enabled {v : Half} {s : State} (h15 : flag v cr1SWRST = false) (h0 : flag v cr1PE = true) :
    writeCr1 v s = .ok (s.withB { s.b with cr1 := v &&& cr1Bits }) := by
  simp [writeCr1, h15, h0]

theorem writeCr1_disable {v : Half} {s : State} (h15 : flag v cr1SWRST = false) (h0 : flag v cr1PE = false)
    (hm : s.b.bmode.isMaster = false) : writeCr1 v s = .ok (s.withB (disabledBc s.b (v &&& 0xB8FB#16))) := by
  simp [writeCr1, h15, h0, hm, Bc.disable_eq_disabledBc]

theorem writeCr1_fault {v : Half} {s : State} (h15 : flag v cr1SWRST = false) (h0 : flag v cr1PE = false)
    (hm : s.b.bmode.isMaster = true) : writeCr1 v s = .fault .abortWithoutStop := by
  simp [writeCr1, h15, h0, hm]

/-! ### DR writes and SR2 reads (rules R38, R39) -/

/-- A DR write has the effects of rule R39 on the bus controller and touches nothing else. -/
theorem writeDr_effect (v : Half) (s : State) :
    ∃ c, DrWrite (v.extractLsb' 0 8) s.b c ∧ writeDr v s = s.withB c := by
  refine ⟨(writeDr v s).b, ⟨fun h => ?_, fun h1 h2 => ?_, fun h1 h2 => ?_⟩, ?_⟩
  · rw [writeDr, if_pos (by simpa using h), ← and_drBits]
    rfl
  · rw [writeDr, if_neg (by simpa using h1), if_pos h2, ← and_drBits, setFlag_false, setFlag_false, BitVec.and_assoc]
    rfl
  · rw [writeDr, if_neg (by simpa using h1), if_neg h2, ← and_drBits]
    rfl
  · unfold writeDr
    split
    · rfl
    · split <;> rfl

/-- An SR2 read that finds a seen ADDR clears it (rule R38). -/
theorem readSr2_clears {s : State} (h : flag s.b.sr1 sr1ADDR = true ∧ s.b.sr1SeenADDR = true) :
    readSr2 s = (s.b.sr2, s.withB { s.b with
      sr1 := (s.b.sr1 &&& 0xFFFD#16) ||| (if s.b.bmode = .mTx then 0x0080#16 else 0x0000#16)
      sr1SeenADDR := false }) := by
  rw [readSr2, if_pos (by simpa using h), Bc.clearAddr_eq]

/-- Any other SR2 read changes nothing (rule R38). -/
theorem readSr2_keeps {s : State} (h : ¬ (flag s.b.sr1 sr1ADDR = true ∧ s.b.sr1SeenADDR = true)) :
    readSr2 s = (s.b.sr2, s) := by
  rw [readSr2, if_neg (by simpa using h)]

/-- A DR read returns its byte and clears RXNE and BTF (rule R39). -/
theorem readDr_eq (s : State) :
    readDr s = (s.b.dr &&& 0x00FF#16, s.withB { s.b with sr1 := s.b.sr1 &&& 0xFFBB#16 }) := by
  have hv : zext16 (lowByte s.b.dr) = s.b.dr &&& 0x00FF#16 := by
    rw [show (0x00FF#16 : Half) = drBits from rfl, and_drBits]
    rfl
  rw [readDr, hv, setFlag_false, setFlag_false, BitVec.and_assoc]
  rfl

/-! ### The micro-operations that write CR1 (rules R117 to R119, R123, R136, R137, R146, R150, R204) -/

/-- Setting a bit outside a mask does not show under it. -/
theorem setFlag_and_of_flag_false (w mask : Half) (n : Nat) (v : Bool) (hn : n < 16) (h : flag mask n = false) :
    setFlag w n v &&& mask = w &&& mask := by
  apply ext_flag
  intro k _
  rw [flag_and, flag_and, flag_setFlag w n k v hn]
  split
  · next e => rw [e, h, Bool.and_false, Bool.and_false]
  · rfl

/-- A micro-operation whose step in `s` writes CR1: `v` is the value it writes, and `after` is the rest of its step once
the write is done. ABORT is one in its phase 0. -/
inductive WritesCr1 (s : State) : Instr → Half → (State → State) → Prop where
  | peOff (q : Seq) (a : MicroAddr) : WritesCr1 s (.peOff q a) (setFlag s.b.cr1 cr1PE false) (applySeq q a)
  | selI2c (q : Seq) (a : MicroAddr) : WritesCr1 s (.selI2c q a) (setFlag s.b.cr1 cr1SMBUS false) (applySeq q a)
  | setOpts (q : Seq) (a : MicroAddr) :
      WritesCr1 s (.setOpts q a) (setFlag s.b.cr1 cr1NOSTRETCH s.cfg.noStretchCfg)
        (fun t => applySeq q a (t.withB { t.b with fltr := fltrWord t.cfg &&& fltrBits }))
  | peOn (q : Seq) (a : MicroAddr) : WritesCr1 s (.peOn q a) (setFlag s.b.cr1 cr1PE true) (applySeq q a)
  | ackOn (q : Seq) (a : MicroAddr) : WritesCr1 s (.ackOn q a) (setFlag s.b.cr1 cr1ACK true) (applySeq q a)
  | genStart (q : Seq) (a : MicroAddr) : WritesCr1 s (.genStart q a) (setFlag s.b.cr1 cr1START true) (applySeq q a)
  | genStop (q : Seq) (a : MicroAddr) :
      WritesCr1 s (.genStop q a) (setFlag s.b.cr1 cr1STOP true) (fun t => applySeq q a (disarm t))
  | nackStop (q : Seq) (a : MicroAddr) :
      WritesCr1 s (.nackStop q a) (setFlag (setFlag s.b.cr1 cr1ACK false) cr1STOP true)
        (fun t => applySeq q a (disarm t))
  | abort (q : Seq) (a : MicroAddr) (haph : s.m.aph = false) :
      WritesCr1 s (.abort q a) (setFlag (setFlag (setFlag s.b.cr1 cr1START false) cr1STOP true) cr1ACK false)
        (fun t => (writeSr1 abortSr1 t).withM { t.m with armed := false, aph := true })

/-- The outcome of a step in `s` of which the CR1 write answers `x`. -/
def cr1Outcome (s : State) (x : Micro State) (after : State → State) : Host.Outcome State Fault Refusal :=
  match x with
  | .ok t => .next (after t)
  | .fault f => .next (s.recordFault f)
  | .refuse => .next s.markRefusal
  | .stop f => .fault f

section
variable {s : State} {i : Instr} {v : Half} {after : State → State}

/-- The meaning of a micro-operation that writes CR1 is its CR1 write, then the rest of its step. -/
theorem WritesCr1.exec_eq (h : WritesCr1 s i v after) : exec i s = cr1Outcome s (writeCr1 v s) after := by
  cases h with
  | abort q a haph =>
    simp only [exec, execAbort, haph, abortAssertStop, bcSet_cr1, bcWrite_sr1, Bool.false_eq_true, if_false]
    cases writeCr1 (setFlag (setFlag (setFlag s.b.cr1 cr1START false) cr1STOP true) cr1ACK false) s <;> rfl
  | setOpts q a =>
    simp only [exec, execSetOpts, bcSet_cr1, bcWrite_fltr]
    cases writeCr1 (setFlag s.b.cr1 cr1NOSTRETCH s.cfg.noStretchCfg) s <;> rfl
  | genStop q a =>
    simp only [exec, execGenStop, bcSet_cr1]
    cases writeCr1 (setFlag s.b.cr1 cr1STOP true) s <;> rfl
  | nackStop q a =>
    simp only [exec, execNackStop, bcSet_cr1]
    cases writeCr1 (setFlag (setFlag s.b.cr1 cr1ACK false) cr1STOP true) s <;> rfl
  | _ => rfl

/-- No micro-operation changes SWRST. -/
theorem WritesCr1.flag_swrst (h : WritesCr1 s i v after) : flag v cr1SWRST = flag s.b.cr1 cr1SWRST := by
  cases h <;> simp (disch := decide) only [flag_setFlag_ne]

/-- Only PE_ON sets PE. -/
theorem WritesCr1.flag_pe_off (h : WritesCr1 s i v after) (hon : ∀ q a, i ≠ .peOn q a)
    (h0 : flag s.b.cr1 cr1PE = false) : flag v cr1PE = false := by
  cases h with
  | peOff => exact flag_setFlag_same _ _ _
  | peOn q a => exact absurd rfl (hon q a)
  | _ => simp (disch := decide) only [flag_setFlag_ne, h0]

theorem WritesCr1.exec_refused (h : WritesCr1 s i v after) (h15 : flag s.b.cr1 cr1SWRST = true) :
    exec i s = .next s.markRefusal := by
  rw [h.exec_eq, writeCr1_refuse (h.flag_swrst.trans h15)]
  rfl

theorem WritesCr1.exec_enabled (h : WritesCr1 s i v after) (h15 : flag s.b.cr1 cr1SWRST = false)
    (h0 : flag v cr1PE = true) : exec i s = .next (after (s.withB { s.b with cr1 := v &&& cr1Bits })) := by
  rw [h.exec_eq, writeCr1_enabled (h.flag_swrst.trans h15) h0]
  rfl

theorem WritesCr1.exec_disables (h : WritesCr1 s i v after) (h15 : flag s.b.cr1 cr1SWRST = false)
    (h0 : flag v cr1PE = false) (hm : s.b.bmode.isMaster = false) :
    exec i s = .next (after (s.withB (disabledBc s.b (v &&& 0xB8FB#16)))) := by
  rw [h.exec_eq, writeCr1_disable (h.flag_swrst.trans h15) h0 hm]
  rfl

theorem WritesCr1.exec_faults (h : WritesCr1 s i v after) (h15 : flag s.b.cr1 cr1SWRST = false)
    (h0 : flag v cr1PE = false) (hm : s.b.bmode.isMaster = true) :
    exec i s = .next (s.recordFault .abortWithoutStop) := by
  rw [h.exec_eq, writeCr1_fault (h.flag_swrst.trans h15) h0 hm]
  rfl

end

/-- An offset that is no multiple of 4 up to 0x24, or that is OAR1's or OAR2's, names no register the model accesses. -/
theorem bcRegAt_unmodelled {off : Nat} (h : off = 0x08 ∨ off = 0x0C ∨ 0x28 ≤ off ∨ off % 4 ≠ 0) :
    bcRegAt off = none ∨ bcRegAt off = some .oar1 ∨ bcRegAt off = some .oar2 := by
  unfold bcRegAt
  split <;> simp_all

end Sys2Proof.Machine

/-! ### The statements on single register accesses and on CR1 with PE = 0 -/

namespace Sys2Proof.Proofs

open Sys2Proof.Machine Sys2Proof.Safety

/-- Settles O30, from the equation of each access. -/
theorem statusAndDataReadEffects : Obligations.StatusAndDataReadEffects := by
  intro s
  refine ⟨?_, fun h => ?_, fun h => ?_, ?_, fun v => ?_⟩
  · have hor : ∀ seen now : Bool, (seen || now) = if now then true else seen := by decide
    rw [show bcRead 0x14 s = .ok (readSr1 s) from rfl, readSr1, hor, hor]
    rfl
  · rw [bcRead_sr2, readSr2_clears h]
    rfl
  · rw [bcRead_sr2, readSr2_keeps h]
  · rw [bcRead_dr, readDr_eq]
    rfl
  · obtain ⟨c, hc, e⟩ := writeDr_effect v s
    exact ⟨c, hc, by rw [bcWrite_dr, e]; rfl⟩

/-- Settles O31: the three ways of a CR1 write that is not refused, and the masks of the other registers. -/
theorem controlRegisterWrites : Obligations.ControlRegisterWrites := by
  intro v s h15
  refine ⟨fun h0 => writeCr1_enabled h15 h0, fun h0 hm => ?_, fun h0 h1 h2 => ?_, fun u => ?_⟩
  · exact writeCr1_disable h15 h0 ((BMode.isMaster_eq_false _).2 hm)
  · exact writeCr1_fault h15 h0 ((BMode.isMaster_eq_true _).2 ⟨h1, h2⟩)
  · exact ⟨rfl, rfl, rfl, rfl, rfl, rfl⟩

/-- Settles O32: an offset without a modelled register is refused, and no micro-operation that writes CR1 touches
SWRST. -/
theorem unmodelledAccessesAreRefused : Obligations.UnmodelledAccessesAreRefused := by
  refine ⟨fun v s h => writeCr1_refuse h, fun off v s h => ?_, fun seq tgt s i h15 hi => ?_⟩
  · rcases bcRegAt_unmodelled h with e | e | e <;> simp [bcRead, bcWrite, e]
  · simp only [List.mem_cons, List.not_mem_nil, or_false] at hi
    rcases hi with (rfl | rfl | rfl | rfl | rfl | rfl | rfl | rfl) | ⟨rfl, haph⟩
    · exact (WritesCr1.peOff seq tgt).exec_refused h15
    · exact (WritesCr1.selI2c seq tgt).exec_refused h15
    · exact (WritesCr1.setOpts seq tgt).exec_refused h15
    · exact (WritesCr1.peOn seq tgt).exec_refused h15
    · exact (WritesCr1.ackOn seq tgt).exec_refused h15
    · exact (WritesCr1.genStart seq tgt).exec_refused h15
    · exact (WritesCr1.genStop seq tgt).exec_refused h15
    · exact (WritesCr1.nackStop seq tgt).exec_refused h15
    · exact (WritesCr1.abort seq tgt haph).exec_refused h15

/-- Settles O17: none of these micro-operations sets PE, so each meets the fault of rule R40. -/
theorem peZeroWhileMasterRecordsTheFault : Obligations.PeZeroWhileMasterRecordsTheFault := by
  intro seq tgt s h15 hi hl
  have hm : s.b.bmode.isMaster = true := (BMode.isMaster_eq_true _).2 ⟨hi, hl⟩
  refine ⟨(WritesCr1.peOff seq tgt).exec_faults h15 (flag_setFlag_same _ _ _) hm, fun h0 => ?_⟩
  have faults {i : Instr} {v : Half} {after : State → State} (h : WritesCr1 s i v after)
      (hon : ∀ q a, i ≠ .peOn q a) := h.exec_faults h15 (h.flag_pe_off hon h0) hm
  exact ⟨faults (.selI2c seq tgt) nofun, faults (.setOpts seq tgt) nofun, faults (.ackOn seq tgt) nofun,
    faults (.genStart seq tgt) nofun, faults (.genStop seq tgt) nofun, faults (.nackStop seq tgt) nofun,
    fun haph => faults (.abort seq tgt haph) nofun⟩

/-- Settles O16: the disable effects of rule R40 on the value that each micro-operation writes. -/
theorem cr1WritesWithPeZero : Obligations.Cr1WritesWithPeZero := by
  intro seq tgt s h15 hmode
  have hm : s.b.bmode.isMaster = false := (BMode.isMaster_eq_false _).2 hmode
  refine ⟨?_, fun h0 => ?_⟩
  · rw [(WritesCr1.peOff seq tgt).exec_disables h15 (flag_setFlag_same _ _ _) hm, setFlag_false, BitVec.and_assoc]
    rfl
  · have disables {i : Instr} {v : Half} {after : State → State} (h : WritesCr1 s i v after)
        (hon : ∀ q a, i ≠ .peOn q a) := h.exec_disables h15 (h.flag_pe_off hon h0) hm
    -- START, STOP and ACK lie outside the bits that the disable effects leave in CR1.
    have hides {n : Nat} (hn : n ∈ [cr1START, cr1STOP, cr1ACK]) (w : Half) (v : Bool) :
        setFlag w n v &&& 0xB8FB#16 = w &&& 0xB8FB#16 := by
      have : n < 16 ∧ flag 0xB8FB#16 n = false := by revert n; decide
      exact setFlag_and_of_flag_false w _ n v this.1 this.2
    refine ⟨?_, ?_, ?_, ?_, ?_, ?_⟩
    · rw [disables (.selI2c seq tgt) nofun, setFlag_false, BitVec.and_assoc]
      rfl
    · rw [disables (.setOpts seq tgt) nofun, setFlag_eq_mask, ← fltrWord_and_fltrBits]
      rfl
    · rw [disables (.ackOn seq tgt) nofun, hides (by decide)]
      rfl
    · rw [disables (.genStart seq tgt) nofun, hides (by decide)]
      rfl
    · rw [disables (.genStop seq tgt) nofun, hides (by decide)]
      rfl
    · rw [disables (.nackStop seq tgt) nofun, hides (by decide), hides (by decide)]
      rfl

end Sys2Proof.Proofs

/-! What one micro-operation can do, said once: every next state of `exec` for the 25 micro-operations. -/

namespace Sys2Proof.Machine

open Sys2Proof.Safety

/-! ### The reads of a poll (rules R38, R132) -/

/-- What a seen mark may be after a read of SR1 or none: as it was, or set because its flag is. -/
def MarkAfterRead (old flagNow new : Bool) : Prop := new = old ∨ new = true ∧ flagNow = true

theorem markAfterRead_or (old flagNow : Bool) : MarkAfterRead old flagNow (old || flagNow) := by
  cases flagNow <;> simp [MarkAfterRead]

/-- The bus controller with other seen marks. -/
def Bc.withMarks (b : Bc) (sb addr : Bool) : Bc := { b with sr1SeenSB := sb, sr1SeenADDR := addr }

section
variable {s : State} {sb addr : Bool} (hsb : MarkAfterRead s.b.sr1SeenSB (flag s.b.sr1 sr1SB) sb)
  (haddr : MarkAfterRead s.b.sr1SeenADDR (flag s.b.sr1 sr1ADDR) addr)
include hsb haddr

/-- A poll that has read SR1, or nothing, and no SR2. -/
theorem pollFlags_withMarks : PollFlags s.b (s.b.withMarks sb addr) :=
  ⟨hsb, .inr ⟨rfl, haddr⟩⟩

/-- The read of SR2 after it clears a seen ADDR, or changes nothing. -/
theorem readSr2_withMarks :
    ∃ c, (readSr2 (s.withB (s.b.withMarks sb addr))).2 = s.withB c ∧ PollFlags s.b c := by
  by_cases h : flag s.b.sr1 sr1ADDR = true ∧ addr = true
  · rw [readSr2_clears (s := s.withB (s.b.withMarks sb addr)) h]
    exact ⟨_, rfl, hsb, .inl ⟨h.1, rfl⟩⟩
  · rw [readSr2_keeps (s := s.withB (s.b.withMarks sb addr)) h]
    exact ⟨_, rfl, pollFlags_withMarks hsb haddr⟩

end

/-- The reads of a poll change the flags of the bus controller as rule R38 says, and nothing else. -/
theorem pollReads_flags (row : PollRow) (s : State) :
    ∃ b, (pollReads row s).2 = s.withB b ∧ PollFlags s.b b := by
  have keepSb : MarkAfterRead s.b.sr1SeenSB (flag s.b.sr1 sr1SB) s.b.sr1SeenSB := .inl rfl
  have keepAddr : MarkAfterRead s.b.sr1SeenADDR (flag s.b.sr1 sr1ADDR) s.b.sr1SeenADDR := .inl rfl
  have readSb := markAfterRead_or s.b.sr1SeenSB (flag s.b.sr1 sr1SB)
  have readAddr := markAfterRead_or s.b.sr1SeenADDR (flag s.b.sr1 sr1ADDR)
  unfold pollReads
  cases row.readsSr1 <;> cases row.readsSr2.now s.m.armed <;> simp only [if_true, Bool.false_eq_true, if_false]
  · exact ⟨_, rfl, pollFlags_withMarks keepSb keepAddr⟩
  · exact readSr2_withMarks keepSb keepAddr
  · exact ⟨_, rfl, pollFlags_withMarks readSb readAddr⟩
  · exact readSr2_withMarks readSb readAddr

/-! ### The polls -/

/-- A poll micro-operation with its row of rule R134 and its success action. -/
inductive PollOp : Instr → PollRow → (State → State) → Seq → MicroAddr → Prop where
  | pollSb (q : Seq) (a : MicroAddr) : PollOp (.pollSb q a) rowSb noAction q a
  | pollMb (q : Seq) (a : MicroAddr) : PollOp (.pollMb q a) rowMb arm q a
  | pollAddr (q : Seq) (a : MicroAddr) : PollOp (.pollAddr q a) rowAddr noAction q a
  | pollTxe (q : Seq) (a : MicroAddr) : PollOp (.pollTxe q a) rowTxe noAction q a
  | pollBtf (q : Seq) (a : MicroAddr) : PollOp (.pollBtf q a) rowBtf countByte q a
  | pollStop (q : Seq) (a : MicroAddr) : PollOp (.pollStop q a) rowStop noAction q a
  | pollRxne (q : Seq) (a : MicroAddr) : PollOp (.pollRxne q a) rowRxne noAction q a

/-- `c` is what the reads of a poll leave of the bus controller; POLL_STOP reads CR1 only. -/
def PolledBc (row : PollRow) (b c : Bc) : Prop := PollFlags b c ∧ (row = rowStop → c = b)

theorem pollReads_polledBc (row : PollRow) (s : State) : ∃ b, (pollReads row s).2 = s.withB b ∧ PolledBc row s.b b := by
  by_cases h : row = rowStop
  · subst h
    exact ⟨s.b, rfl, ⟨.inl rfl, .inr ⟨rfl, .inl rfl⟩⟩, fun _ => rfl⟩
  · obtain ⟨b, e, hb⟩ := pollReads_flags row s
    exact ⟨b, e, hb, fun e => absurd e h⟩

/-- `c` is `m.cnt` after an iteration that neither resolves the wait nor runs out of the budget (rules R133, R204). -/
def CountsDown (s : State) (c : BitVec 16) : Prop :=
  (s.cfg.pollBudget = 0#16 ∧ c = s.m.cnt) ∨ (s.cfg.pollBudget ≠ 0#16 ∧ s.m.cnt - 1 ≠ 0#16 ∧ c = s.m.cnt - 1)

/-! ### Every micro-operation -/

/-- What a CR1 write that is done leaves of the bus controller: new bits in CR1, or the effects of PE = 0. -/
def Cr1Written (b c : Bc) : Prop :=
  (∃ v, c = { b with cr1 := v }) ∨
    (b.bmode.isMaster = false ∧ ∃ v, flag v cr1PE = false ∧ c = disabledBc b v)

/-- `MicroNext s i t`: the micro-operation `i` may take `s` to `t`. -/
inductive MicroNext (s : State) : Instr → State → Prop where
  | refused {i v after} (hi : WritesCr1 s i v after) : MicroNext s i s.markRefusal
  | faulted {i v after} (hi : WritesCr1 s i v after) : MicroNext s i (s.recordFault .abortWithoutStop)
  | cr1Written {i v after b} (hi : WritesCr1 s i v after) (hb : Cr1Written s.b b) : MicroNext s i (after (s.withB b))
  | done (q a) :
      MicroNext s (.done q a)
        (applySeq q a (s.withM { s.m with result := .ok, errupc := 0#6, armed := false, busy := false }))
  | tcuAccepts (q a o) : MicroNext s (.tcuEval q a) (applySeq q a (s.withM (latchTcu o s.m)))
  | tcuRejects (q a) :
      MicroNext s (.tcuEval q a) (s.withM { s.m with result := .configError, errupc := 0#6, busy := false })
  | wrFreq (q a v) : MicroNext s (.wrFreq q a) (applySeq q a (s.withB { s.b with cr2 := v }))
  | wrCcr (q a v) : MicroNext s (.wrCcr q a) (applySeq q a (s.withB { s.b with ccr := v }))
  | wrTrise (q a v) : MicroNext s (.wrTrise q a) (applySeq q a (s.withB { s.b with trise := v }))
  | pollRaises {i row act q a b e} (c) (hi : PollOp i row act q a) (hb : PolledBc row s.b b) (he : e ≠ .none) :
      MicroNext s i (raise e ((s.withB b).withM { s.m with cnt := c }))
  | pollCompletes {i row act q a b} (hi : PollOp i row act q a) (hb : PolledBc row s.b b) :
      MicroNext s i (applySeq q a (act (s.withB b)))
  | pollWaits {i row act q a b c} (hi : PollOp i row act q a) (hb : PolledBc row s.b b) (hc : CountsDown s c) :
      MicroNext s i ((s.withB b).withM { s.m with cnt := c })
  | txAddr (q a v b) (hb : DrWrite v s.b b) : MicroNext s (.txAddr q a) (applySeq q a (s.withB b))
  | txData (q a v b) (hb : DrWrite v s.b b) : MicroNext s (.txData q a) (applySeq q a (s.withB b))
  | unwrittenByte (q a) : MicroNext s (.txData q a) (s.recordFault .unwrittenBuf)
  | clrAddr (q a b) (hb : b = s.b ∨ AddrCleared s.b b) : MicroNext s (.clrAddr q a) (applySeq q a (s.withB b))
  | rxData (q a v) (hidx : s.m.idx.toNat < bufDepth) :
      MicroNext s (.rxData q a) (applySeq q a (countByte
        ((s.withB { s.b with sr1 := s.b.sr1 &&& 0xFFBB#16 }).withBuf (s.buf.write s.m.idx.toNat v))))
  | abortEnds (q a c n) (haph : s.m.aph = true) :
      MicroNext s (.abort q a) (applySeq q a (abortFinish (s.withM { s.m with cnt := c, nostop := n })))
  | abortWaits {c} (q a) (haph : s.m.aph = true) (hc : CountsDown s c) :
      MicroNext s (.abort q a) (s.withM { s.m with cnt := c })

section
variable {s t : State} {i : Instr}

/-- The three ends of a step that writes CR1. -/
theorem WritesCr1.next {v : Half} {after : State → State} (hi : WritesCr1 s i v after) (h : exec i s = .next t) :
    MicroNext s i t := by
  rw [hi.exec_eq] at h
  rcases writeCr1_cases v s with ⟨_, e⟩ | ⟨_, _, e⟩ | ⟨_, _, _, e⟩ | ⟨_, h0, hm, e⟩ <;> rw [e] at h <;> cases h
  · exact .refused hi
  · exact .cr1Written hi (.inl ⟨_, rfl⟩)
  · exact .faulted hi
  · refine .cr1Written hi (.inr ⟨hm, v &&& 0xB8FB#16, ?_, Bc.disable_eq_disabledBc s.b v⟩)
    rw [flag_and, h0, Bool.false_and]

/-- A poll runs one iteration of its row. -/
theorem PollOp.exec_eq {row : PollRow} {act : State → State} {q : Seq} {a : MicroAddr} (hi : PollOp i row act q a) :
    exec i s = .next (pollOnce row act q a s) := by
  cases hi <;> rfl

/-- The ends of one iteration of a poll. -/
theorem PollOp.next {row : PollRow} {act : State → State} {q : Seq} {a : MicroAddr} (hi : PollOp i row act q a)
    (h : exec i s = .next t) : MicroNext s i t := by
  rw [hi.exec_eq] at h
  cases h
  obtain ⟨b, e, hb⟩ := pollReads_polledBc row s
  rcases pollOnce_cases row act q a s with ⟨_, _, h⟩ | ⟨_, _, h⟩ | ⟨_, h⟩ | ⟨_, h⟩ <;> rw [h, e]
  · exact .pollRaises s.m.cnt hi hb (by decide)
  · exact .pollRaises s.m.cnt hi hb (by decide)
  · exact .pollCompletes hi hb
  · rcases pollUnresolved_cases (s.withB b) with ⟨h0, h⟩ | ⟨_, _, h⟩ | ⟨h0, h1, h⟩ <;> rw [h]
    · exact .pollWaits hi hb (.inl ⟨h0, rfl⟩)
    · exact .pollRaises (s.m.cnt - 1) hi hb (by decide)
    · exact .pollWaits hi hb (.inr ⟨h0, h1, rfl⟩)

/-- Everything a micro-operation can do when it answers a next state. -/
theorem exec_microNext (hi : isMicro i = true) (h : exec i s = .next t) : MicroNext s i t := by
  cases i with
  | init | write | read | badCommand => cases hi
  | peOff q a => exact (WritesCr1.peOff q a).next h
  | selI2c q a => exact (WritesCr1.selI2c q a).next h
  | setOpts q a => exact (WritesCr1.setOpts q a).next h
  | peOn q a => exact (WritesCr1.peOn q a).next h
  | ackOn q a => exact (WritesCr1.ackOn q a).next h
  | genStart q a => exact (WritesCr1.genStart q a).next h
  | genStop q a => exact (WritesCr1.genStop q a).next h
  | nackStop q a => exact (WritesCr1.nackStop q a).next h
  | pollSb q a => exact (PollOp.pollSb q a).next h
  | pollMb q a => exact (PollOp.pollMb q a).next h
  | pollAddr q a => exact (PollOp.pollAddr q a).next h
  | pollTxe q a => exact (PollOp.pollTxe q a).next h
  | pollBtf q a => exact (PollOp.pollBtf q a).next h
  | pollStop q a => exact (PollOp.pollStop q a).next h
  | pollRxne q a => exact (PollOp.pollRxne q a).next h
  | done q a => cases h; exact .done q a
  | wrFreq q a => cases h; exact .wrFreq q a _
  | wrCcr q a => cases h; exact .wrCcr q a _
  | wrTrise q a => cases h; exact .wrTrise q a _
  | tcuEval q a =>
    cases h
    cases tcu s.m.clk.toNat s.m.mode s.m.duty with
    | none => exact .tcuRejects q a
    | some o => exact .tcuAccepts q a o
  | txAddr q a =>
    cases h
    obtain ⟨c, hc, e⟩ := writeDr_effect (zext16 (addressByte s.m)) s
    rw [e]
    exact .txAddr q a _ c hc
  | txData q a =>
    simp only [exec, execTxData, sendByte] at h
    cases hv : s.buf.read s.m.idx.toNat with
    | none =>
      rw [hv] at h
      cases h
      exact .unwrittenByte q a
    | some v =>
      rw [hv] at h
      cases h
      obtain ⟨c, hc, e⟩ := writeDr_effect (zext16 v) s
      rw [e]
      exact .txData q a _ c hc
  | clrAddr q a =>
    cases h
    by_cases ha : flag s.b.sr1 sr1ADDR = true ∧ s.b.sr1SeenADDR = true
    · rw [readSr2_clears ha]
      exact .clrAddr q a _ (.inr ⟨ha.1, rfl⟩)
    · rw [readSr2_keeps ha]
      exact .clrAddr q a _ (.inl rfl)
  | rxData q a =>
    simp only [exec, execRxData, bcRead_dr, Micro.bind_ok, storeByte, readDr_eq] at h
    split at h
    · next hidx =>
      cases h
      exact .rxData q a _ hidx
    · cases h
  | abort q a =>
    cases haph : s.m.aph with
    | false => exact (WritesCr1.abort q a haph).next h
    | true =>
      change execAbort q a s = .next t at h
      rw [execAbort, if_pos haph, abortPollStop] at h
      split at h
      · cases h
        exact .abortEnds q a s.m.cnt s.m.nostop haph
      · split at h
        · next h0 =>
          cases h
          exact .abortWaits q a haph (.inl ⟨h0, rfl⟩)
        · split at h
          · cases h
            exact .abortEnds q a _ true haph
          · next h0 h1 =>
            cases h
            exact .abortWaits q a haph (.inr ⟨h0, h1, rfl⟩)

end

end Sys2Proof.Machine

/-! The frame of a micro-operation: what each of the 25 leaves unchanged (rules R21 to R26, R44, R70, R126, R207). -/

namespace Sys2Proof.Machine

open Sys2Proof.Safety

/-! ### The registers that the flag rules leave alone -/

theorem sameFlags_refl (b : Bc) : SameFlags b b := ⟨rfl, rfl, rfl, rfl, rfl, rfl⟩

/-- The clear of ADDR touches SR1 and the seen marks only. -/
theorem addrCleared_shape {b c : Bc} (h : AddrCleared b c) :
    ∃ sr1 sb addr, c = { b with sr1 := sr1, sr1SeenSB := sb, sr1SeenADDR := addr } :=
  ⟨_, _, _, h.2⟩

/-- The reads of a poll touch SR1 and the seen marks only. -/
theorem pollFlags_shape {b c : Bc} (h : PollFlags b c) :
    ∃ sr1 sb addr, c = { b with sr1 := sr1, sr1SeenSB := sb, sr1SeenADDR := addr } := by
  obtain ⟨_, ha | ⟨e, _⟩⟩ := h
  · exact addrCleared_shape ha
  · exact ⟨b.sr1, _, _, e⟩

/-- A DR write touches DR, SR1, the SB mark, the mode and the pending byte only. -/
theorem drWrite_shape {v : Byte} {b c : Bc} (h : DrWrite v b c) :
    ∃ dr sr1 sb mode pending,
      c = { b with dr := dr, sr1 := sr1, sr1SeenSB := sb, bmode := mode, txPending := pending } := by
  obtain ⟨haddress, hdata, hstored⟩ := h
  by_cases ha : flag b.sr1 sr1SB = true ∧ b.sr1SeenSB = true
  · exact ⟨_, _, false, .mAddr, b.txPending, haddress ha⟩
  · by_cases hd : b.bmode = .mTx ∧ flag b.sr1 sr1TXE = true
    · exact ⟨_, _, b.sr1SeenSB, b.bmode, true, hdata ha hd⟩
    · exact ⟨_, b.sr1, b.sr1SeenSB, b.bmode, b.txPending, hstored ha hd⟩

/-! ### The frame, by the parts of the state -/

section
variable {s t : State} {i : Instr}

/-- The ROM, the parameters, the trace and all that belongs to the host and the interleaving. -/
theorem MicroNext.surroundings_frame (h : MicroNext s i t) :
    t.rom = s.rom ∧ t.cfg = s.cfg ∧ t.trace = s.trace ∧ t.program = s.program ∧ t.hostData = s.hostData ∧
      t.callResult = s.callResult ∧ t.callerBuffer = s.callerBuffer ∧ t.schedule = s.schedule ∧
      t.turnsDrawn = s.turnsDrawn := by
  cases h with
  | cr1Written hi => cases hi <;> simp [disarm]
  | pollCompletes hi => cases hi <;> simp [noAction, arm, countByte]
  | _ => simp [countByte]

/-- The operands of the running command. -/
theorem MicroNext.operands_frame (h : MicroNext s i t) :
    t.m.op = s.m.op ∧ t.m.addr = s.m.addr ∧ t.m.dir = s.m.dir ∧ t.m.nm1 = s.m.nm1 ∧ t.m.clk = s.m.clk ∧
      t.m.mode = s.m.mode ∧ t.m.duty = s.m.duty := by
  cases h with
  | cr1Written hi => cases hi <;> simp [disarm]
  | pollCompletes hi => cases hi <;> simp [noAction, arm, countByte]
  | _ => simp [countByte, latchTcu]

/-- The other MTE registers, each but for the micro-operations that write it. -/
theorem MicroNext.mte_frame (h : MicroNext s i t) :
    ((∀ q a, i ≠ .tcuEval q a) → t.m.freq = s.m.freq ∧ t.m.trise = s.m.trise ∧ t.m.ccr = s.m.ccr ∧
      t.m.fs = s.m.fs ∧ t.m.dutybit = s.m.dutybit ∧ t.m.cfgvalid = s.m.cfgvalid) ∧
    ((∀ q a, i ≠ .rxData q a) → (∀ q a, i ≠ .pollBtf q a) → t.m.idx = s.m.idx) ∧
    ((∀ q a, i ≠ .done q a) → (∀ q a, i ≠ .tcuEval q a) → (∀ q a, i ≠ .abort q a) →
      t.m.result = s.m.result ∧ t.m.nostop = s.m.nostop) ∧
    ((∀ q a, i ≠ .done q a) → (∀ q a, i ≠ .pollMb q a) → (∀ q a, i ≠ .genStop q a) → (∀ q a, i ≠ .nackStop q a) →
      (∀ q a, i ≠ .abort q a) → t.m.armed = s.m.armed) ∧
    (isPoll i = false → (∀ q a, i ≠ .abort q a) → t.m.err = s.m.err) ∧
    ((∀ q a, i ≠ .abort q a) → t.m.aph = s.m.aph) ∧
    (isPoll i = false → (∀ q a, i ≠ .done q a) → (∀ q a, i ≠ .tcuEval q a) → t.m.errupc = s.m.errupc) ∧
    (t.m.busy = true → s.m.busy = true) := by
  cases h with
  | cr1Written hi => cases hi <;> simp [disarm]
  | pollCompletes hi => cases hi <;> simp [noAction, arm, countByte]
  | pollRaises _ hi => cases hi <;> simp [isPoll]
  | _ => simp [countByte, latchTcu]

/-- BUF, of which RX_DATA writes the byte at `m.idx`. -/
theorem MicroNext.buf_frame (h : MicroNext s i t) :
    ((∀ q a, i ≠ .rxData q a) → t.buf = s.buf) ∧ (∀ j, j ≠ s.m.idx.toNat → t.buf.read j = s.buf.read j) := by
  cases h with
  | cr1Written hi => cases hi <;> simp [disarm]
  | pollCompletes hi => cases hi <;> simp [noAction, arm, countByte]
  | rxData => simpa [countByte] using fun j => Memory.read_write_ne _ _ j _
  | _ => simp

/-- The bus-controller registers but SR1 and SR2, and the sticky marks, each but for the micro-operations that write
it. -/
theorem MicroNext.registers_frame (h : MicroNext s i t) :
    t.b.oar1 = s.b.oar1 ∧ t.b.oar2 = s.b.oar2 ∧ t.b.otherBusy = s.b.otherBusy ∧
    ((∀ q a, i ≠ .wrFreq q a) → t.b.cr2 = s.b.cr2) ∧ ((∀ q a, i ≠ .wrCcr q a) → t.b.ccr = s.b.ccr) ∧
    ((∀ q a, i ≠ .wrTrise q a) → t.b.trise = s.b.trise) ∧ ((∀ q a, i ≠ .setOpts q a) → t.b.fltr = s.b.fltr) ∧
    ((∀ q a, i ≠ .txAddr q a) → (∀ q a, i ≠ .txData q a) → t.b.dr = s.b.dr) ∧
    ((∀ q a, i ≠ .peOff q a) → (∀ q a, i ≠ .selI2c q a) → (∀ q a, i ≠ .setOpts q a) → (∀ q a, i ≠ .peOn q a) →
      (∀ q a, i ≠ .ackOn q a) → (∀ q a, i ≠ .genStart q a) → (∀ q a, i ≠ .genStop q a) →
      (∀ q a, i ≠ .nackStop q a) → (∀ q a, i ≠ .abort q a) →
      t.b.cr1 = s.b.cr1 ∧ t.refusalMark = s.refusalMark ∧ ((∀ q a, i ≠ .txData q a) → t.faults = s.faults)) := by
  cases h with
  | refused hi => cases hi <;> simp
  | faulted hi => cases hi <;> simp
  | cr1Written hi hb =>
    rcases hb with ⟨v, rfl⟩ | ⟨_, v, _, rfl⟩ <;> cases hi <;> simp [disarm, disabledBc, writeSr1]
  | pollCompletes hi hb =>
    obtain ⟨_, _, _, rfl⟩ := pollFlags_shape hb.1
    cases hi <;> simp [noAction, arm, countByte]
  | pollRaises _ _ hb | pollWaits _ hb =>
    obtain ⟨_, _, _, rfl⟩ := pollFlags_shape hb.1
    simp
  | txAddr _ _ _ _ hb | txData _ _ _ _ hb =>
    obtain ⟨_, _, _, _, _, rfl⟩ := drWrite_shape hb
    simp
  | clrAddr _ _ _ hb =>
    rcases hb with rfl | ha
    · simp
    · obtain ⟨_, _, _, rfl⟩ := addrCleared_shape ha
      simp
  | _ => simp [countByte]

/-- The status flags and the hidden state (rule R44). -/
theorem MicroNext.flagFrame (h : MicroNext s i t) : FlagFrame i s.b t.b := by
  cases h with
  | refused hi => cases hi <;> exact .inl (sameFlags_refl s.b)
  | faulted hi => cases hi <;> exact .inl (sameFlags_refl s.b)
  | cr1Written hi hb =>
    rcases hb with ⟨v, rfl⟩ | ⟨hm, v, h0, rfl⟩
    · cases hi with
      | abort => exact .inr (.inr rfl)
      | _ => rw [applySeq_b]; exact .inl (sameFlags_refl s.b)
    · cases hi with
      | abort => exact .inr (.inl ⟨hm, h0, by simp [writeSr1, disabledBc]⟩)
      | _ => rw [applySeq_b]; exact .inr ⟨hm, h0, rfl⟩
  | pollCompletes hi hb => cases hi <;> simp [noAction, arm, countByte, FlagFrame, hb.1, hb.2, sameFlags_refl]
  | pollRaises _ hi hb => cases hi <;> simp [FlagFrame, hb.1, hb.2, sameFlags_refl]
  | pollWaits hi hb => cases hi <;> simp [FlagFrame, hb.1, hb.2, sameFlags_refl]
  | txAddr _ _ v _ hb | txData _ _ v _ hb => rw [applySeq_b]; exact .inr ⟨v, hb⟩
  | unwrittenByte => exact .inl rfl
  | clrAddr _ _ _ hb =>
    rw [applySeq_b]
    exact hb.imp (fun e => by rw [State.withB_b, e]; exact sameFlags_refl s.b) id
  | rxData => rw [applySeq_b]; rfl
  | tcuRejects => exact sameFlags_refl s.b
  | abortWaits => exact .inl (sameFlags_refl s.b)
  | abortEnds => rw [applySeq_b]; exact .inl (sameFlags_refl s.b)
  | _ => rw [applySeq_b]; exact sameFlags_refl s.b

end

end Sys2Proof.Machine

namespace Sys2Proof.Proofs

open Sys2Proof.Machine

/-- Settles O43, from the frame of each part of the state. -/
theorem microOpsChangeOnlyTheirOwn : Obligations.MicroOpsChangeOnlyTheirOwn := by
  intro i s t hi hexec
  have h := exec_microNext hi hexec
  obtain ⟨hrom, hcfg, htrace, hprogram, hdata, hresult, hcaller, hschedule, hturns⟩ := h.surroundings_frame
  obtain ⟨hop, haddr, hdir, hnm1, hclk, hmode, hduty⟩ := h.operands_frame
  obtain ⟨htcu, hidx, hended, harmed, herr, haph, herrupc, hbusy⟩ := h.mte_frame
  obtain ⟨hbuf, hbytes⟩ := h.buf_frame
  obtain ⟨hoar1, hoar2, hother, hcr2, hccr, htrise, hfltr, hdr, hcr1⟩ := h.registers_frame
  exact ⟨hrom, hcfg, htrace, hprogram, hdata, hresult, hcaller, hschedule, hturns, hop, haddr, hdir, hnm1, hclk, hmode,
    hduty, hoar1, hoar2, hother, htcu, hbuf, hbytes, hidx, hcr2, hccr, htrise, hfltr, hdr, hcr1, hended, h.flagFrame,
    harmed, herr, haph, herrupc, hbusy⟩

end Sys2Proof.Proofs

/-! What one step of the block can do, said once: the host's turn, the MTE's turn and the turns of the bus. -/

namespace Sys2Proof.Machine

open Sys2Proof.Safety

/-! ### Which decoder gives which instructions (rule R89) -/

/-- The command register holds command descriptors only. -/
theorem isMicro_decodeCmd (v : Word) : isMicro (decodeCmd v) = false := by
  unfold decodeCmd
  repeat' split
  all_goals rfl

/-- The ROM holds micro-instructions only. -/
theorem isMicro_of_decodeOp {op : BitVec 5} {q : Seq} {a : MicroAddr} {i : Instr} (h : decodeOp op q a = some i) :
    isMicro i = true := by
  unfold decodeOp at h
  split at h <;> cases h <;> rfl

theorem isMicro_of_decodeUop {w : Half} {i : Instr} (h : decodeUop w = .ok i) : isMicro i = true := by
  unfold decodeUop at h
  split at h
  · cases h
  · split at h
    · cases h
    · split at h
      · cases h
      · next hop => cases h; exact isMicro_of_decodeOp hop

/-! ### The command descriptors (rules R83, R84) -/

/-- `m'` is what an idle MTE latches from a command descriptor. -/
inductive Latches (m : Mte) : Instr → Mte → Prop where
  | init (mode duty clk) :
      Latches m (.init mode duty clk) { acceptCommand .init m with clk := clk, mode := mode, duty := duty, upc := 0#6 }
  | write (addr lenm1) : Latches m (.write addr lenm1) (acceptTransfer .write .write 9#6 addr lenm1 m)
  | read (addr lenm1) : Latches m (.read addr lenm1) (acceptTransfer .read .read 21#6 addr lenm1 m)
  | badCommand (w) : Latches m (.badCommand w) { m with result := .badCommand, errupc := 0#6 }

/-- A command descriptor is refused while a command runs, and latched while none does. -/
theorem exec_command {i : Instr} {s t : State} (hi : isMicro i = false) (h : exec i s = .next t) :
    (s.m.busy = true ∧ t = s.markRefusal) ∨ (s.m.busy = false ∧ ∃ m, Latches s.m i m ∧ t = s.withM m) := by
  have idle : ∀ {m}, Latches s.m i m → whenIdle s (s.withM m) = .next t →
      (s.m.busy = true ∧ t = s.markRefusal) ∨ (s.m.busy = false ∧ ∃ m, Latches s.m i m ∧ t = s.withM m) := by
    intro m hm h
    cases hb : s.m.busy <;> rw [whenIdle, hb] at h <;> cases h
    · exact .inr ⟨rfl, m, hm, rfl⟩
    · exact .inl ⟨rfl, rfl⟩
  cases i with
  | init mode duty clk => exact idle (.init mode duty clk) h
  | write addr lenm1 => exact idle (.write addr lenm1) h
  | read addr lenm1 => exact idle (.read addr lenm1) h
  | badCommand w => exact idle (.badCommand w) h
  | _ => cases hi

/-! ### The host's turn (rules R51 to R56, R91) -/

/-- The BUF window of the HI map holds 256 bytes. -/
theorem lt_bufDepth_of_hiTarget {off i : Nat} (h : hiTarget off = .buf i) : i < bufDepth := by
  have hdepth : bufDepth = 256 := rfl
  unfold hiTarget at h
  split_ifs at h
  simp only [HiTarget.buf.injEq] at h
  omega

/-- A host read returns a value, is refused, or records the fault of an unwritten byte. -/
theorem hostRead_cases (w : Width) (off : Nat) (s : State) :
    (∃ v, hostRead w off s = returnToHost v s) ∨ hostRead w off s = s.markRefusal ∨
      hostRead w off s = s.recordFault .unwrittenBuf := by
  unfold hostRead
  split
  · split
    · exact .inl ⟨_, rfl⟩
    · exact .inl ⟨_, rfl⟩
    · exact .inl ⟨_, rfl⟩
    · unfold hostReadBuf
      split
      · exact .inr (.inl rfl)
      · split
        · exact .inl ⟨_, rfl⟩
        · exact .inr (.inr rfl)
    · exact .inr (.inl rfl)
  · exact .inr (.inl rfl)

/-- A host read of a written BUF byte while no command runs returns the byte. -/
theorem hostRead_written {i : Nat} {v : Byte} {s : State} (hb : s.m.busy = false) (hi : i < bufDepth)
    (hv : s.buf.read i = some v) : hostRead .byte (0x100 + i) s = returnToHost (.byte v) s := by
  have ht : hiTarget (0x100 + i) = .buf i := by
    have : bufDepth = 256 := rfl
    simp only [hiTarget]
    repeat rw [if_neg (by omega)]
    rw [if_pos (by omega), Nat.add_sub_cancel_left]
  rw [hostRead, ht]
  simp [hiFits, hostReadBuf, hb, hv]

/-- `HostNext s t`: a turn of the host may take `s` to `t`. -/
inductive HostNext (s : State) : State → Prop where
  | refused (p) : HostNext s (({ s with program := p } : State).markRefusal)
  | faulted (p) : HostNext s (({ s with program := p } : State).recordFault .unwrittenBuf)
  | returned (p v r) : HostNext s { s with program := p, hostData := v, callResult := r }
  | fetched {i} (p v) (hi : i < bufDepth) :
      HostNext s { s with program := p, hostData := some (.byte v), callerBuffer := s.callerBuffer.write i v }
  | wroteBuf {i} (p v) (hb : s.m.busy = false) (hi : i < bufDepth) :
      HostNext s { s with program := p, buf := s.buf.write i v }
  | latched {i m} (p) (hb : s.m.busy = false) (hm : Latches s.m i m) : HostNext s { s with program := p, m := m }

/-- Everything a host read of the next step of the program can do. -/
theorem hostNext_hostRead (w : Width) (off : Nat) (p : List HostStep) (s : State) :
    HostNext s (hostRead w off { s with program := p }) := by
  rcases hostRead_cases w off { s with program := p } with ⟨v, e⟩ | e | e <;> rw [e]
  · exact .returned p (some v) s.callResult
  · exact .refused p
  · exact .faulted p

/-- Everything a host write of the next step of the program can do. -/
theorem hostNext_hostWrite {w : Width} {off : Nat} {v : Word} {p : List HostStep} {s t : State}
    (h : hostWrite w off v { s with program := p } = .next t) : HostNext s t := by
  unfold hostWrite at h
  split at h
  · split at h
    · rcases exec_command (isMicro_decodeCmd v) h with ⟨_, rfl⟩ | ⟨hb, m, hm, rfl⟩
      · exact .refused p
      · exact .latched p hb hm
    · next i hi =>
      cases h
      unfold hostWriteBuf
      split
      · exact .refused p
      · next hb => exact .wroteBuf p _ (by simpa using hb) (lt_bufDepth_of_hiTarget hi)
    · cases h; exact .refused p
    · cases h; exact .refused p
    · cases h; exact .refused p
  · cases h; exact .refused p

/-- Everything a fetch of the caller can do. -/
theorem hostNext_fetchByte (i : Nat) (p : List HostStep) (s : State) :
    HostNext s (fetchByte i { s with program := p }) := by
  have hread := hostNext_hostRead .byte (0x100 + i) p s
  simp only [fetchByte]
  split
  · next h =>
    split
    · next v hv =>
      rw [hostRead_written (s := { s with program := p }) h.1 h.2 hv]
      exact .fetched p v h.2
    · exact hread
  · exact hread

/-- Everything the host's turn can do when it answers a next state. -/
theorem hostTurn_hostNext {s t : State} (h : hostTurn s = .next t) : HostNext s t := by
  unfold hostTurn at h
  split at h
  · cases h; exact .returned s.program s.hostData s.callResult
  · next a rest _ =>
    cases a with
    | read w off => cases h; exact hostNext_hostRead w off rest s
    | write w off v => exact hostNext_hostWrite h
  · next c rest _ =>
    cases h
    rcases waitOnce_cases c rest s with ⟨_, e⟩ | ⟨_, e⟩ <;> rw [e]
    · exact .returned s.program _ s.callResult
    · obtain ⟨r, p, e, _⟩ := endWait_shape c (statusImage s.m)
        { s with hostData := some (.word (statusImage s.m)), program := rest }
      rw [e]
      exact .returned p _ r
  · next i rest _ => cases h; exact hostNext_fetchByte i rest s

/-! ### The step -/

/-- `StepNext s t`: a step may take `s`, whose turn has been taken off the schedule, to `t`. -/
inductive StepNext (s : State) : State → Prop where
  | host {t} (h : HostNext s t) : StepNext s t
  /-- an idle MTE, or a turn whose guard does not hold -/
  | stutters : StepNext s s
  /-- a reserved ROM word (rule R87) -/
  | reservedWord (hb : s.m.busy = true) : StepNext s s.markRefusal
  | micro {w i t} (hb : s.m.busy = true) (hw : fetchWord s = some w) (hi : decodeUop w = .ok i) (h : MicroNext s i t) :
      StepNext s t
  | bus {τ t} (h : busStep τ s = some t) : StepNext s t

/-- Everything the MTE's turn can do when it answers a next state. -/
theorem mteTurn_stepNext {s t : State} (h : mteTurn s = .next t) : StepNext s t := by
  rcases mteTurn_next h with ⟨_, rfl⟩ | ⟨hb, w, hw, ⟨_, _, rfl⟩ | ⟨i, hi, h⟩⟩
  · exact .stutters
  · exact .reservedWord hb
  · exact .micro hb hw hi (exec_microNext (isMicro_of_decodeUop hi) h)

/-- Everything a turn can do when it answers a next state. -/
theorem runTurn_stepNext {τ : Turn} {s t : State} (h : runTurn τ s = .next t) : StepNext s t := by
  by_cases hhost : τ = .host
  · subst hhost
    exact .host (hostTurn_hostNext h)
  · by_cases hmte : τ = .mte
    · subst hmte
      exact mteTurn_stepNext h
    · rw [runTurn_bus τ s hhost hmte] at h
      cases h
      cases hb : busStep τ s with
      | none => exact .stutters
      | some u => exact .bus hb

/-- Everything a step can do when it answers a next state. -/
theorem step_stepNext {s t : State} (h : step s = .next t) :
    ∃ q n, StepNext { s with schedule := q, turnsDrawn := n } t := by
  obtain ⟨q, n, e⟩ := nextTurn_shape s
  obtain ⟨_, _, hrun⟩ := step_next h
  rw [e] at hrun
  exact ⟨q, n, runTurn_stepNext hrun⟩

/-! ### What no step takes back (rules R47, R48, R70) -/

/-- The trace of `s` is the first part of `t`'s, `t` has every sticky mark of `s`, and the ROM and the parameters are
the same. -/
def KeepsRecord (s t : State) : Prop :=
  s.trace <+: t.trace ∧ (s.refusalMark = true → t.refusalMark = true) ∧
    (s.faults.unwrittenBuf = true → t.faults.unwrittenBuf = true) ∧
    (s.faults.abortWithoutStop = true → t.faults.abortWithoutStop = true) ∧ t.rom = s.rom ∧ t.cfg = s.cfg

/-- A state with the trace, the marks, the ROM and the parameters of another. -/
theorem keepsRecord_of_eq {s t : State} (htrace : t.trace = s.trace) (hmark : t.refusalMark = s.refusalMark)
    (hfaults : t.faults = s.faults) (hrom : t.rom = s.rom) (hcfg : t.cfg = s.cfg) : KeepsRecord s t := by
  unfold KeepsRecord
  rw [htrace, hmark, hfaults]
  exact ⟨List.prefix_rfl, id, id, id, hrom, hcfg⟩

theorem keepsRecord_markRefusal (s : State) : KeepsRecord s s.markRefusal :=
  ⟨List.prefix_rfl, fun _ => rfl, id, id, rfl, rfl⟩

theorem keepsRecord_recordFault (s : State) (f : ModelFault) : KeepsRecord s (s.recordFault f) := by
  cases f
  · exact ⟨List.prefix_rfl, id, fun _ => rfl, id, rfl, rfl⟩
  · exact ⟨List.prefix_rfl, id, id, fun _ => rfl, rfl, rfl⟩

section
variable {s t : State}

theorem MicroNext.keepsRecord {i : Instr} (h : MicroNext s i t) : KeepsRecord s t := by
  obtain ⟨hrom, hcfg, htrace, _⟩ := h.surroundings_frame
  cases h with
  | refused => exact keepsRecord_markRefusal s
  | faulted => exact keepsRecord_recordFault s _
  | unwrittenByte => exact keepsRecord_recordFault s _
  | cr1Written hi =>
    refine keepsRecord_of_eq htrace ?_ ?_ hrom hcfg <;> cases hi <;> simp [disarm]
  | pollCompletes hi =>
    refine keepsRecord_of_eq htrace ?_ ?_ hrom hcfg <;> cases hi <;> simp [noAction, arm, countByte]
  | _ => exact keepsRecord_of_eq htrace (by simp [countByte]) (by simp [countByte]) hrom hcfg

theorem HostNext.keepsRecord (h : HostNext s t) : KeepsRecord s t := by
  cases h with
  | refused p => exact keepsRecord_markRefusal { s with program := p }
  | faulted p => exact keepsRecord_recordFault { s with program := p } _
  | _ => exact keepsRecord_of_eq rfl rfl rfl rfl rfl

theorem StepNext.keepsRecord (h : StepNext s t) : KeepsRecord s t := by
  cases h with
  | host h => exact h.keepsRecord
  | stutters => exact keepsRecord_of_eq rfl rfl rfl rfl rfl
  | reservedWord => exact keepsRecord_markRefusal s
  | micro _ _ _ h => exact h.keepsRecord
  | bus h =>
    obtain ⟨b, evs, rfl⟩ := busStep_shape h
    exact ⟨List.prefix_append _ _, id, id, id, rfl, rfl⟩

end

end Sys2Proof.Machine

namespace Sys2Proof.Proofs

open Sys2Proof.Machine

/-- Settles O50, from what each agent's step keeps. -/
theorem stickyAndFixed : Obligations.StickyAndFixed := by
  intro s t h
  obtain ⟨q, n, hs⟩ := step_stepNext h
  exact hs.keepsRecord

end Sys2Proof.Proofs

/-! The MTE's invariant (rules R20 to R24, R204): the instruction at each ROM address, where a command may go from each,
and that every step keeps the invariant. -/

namespace Sys2Proof.Machine

open Sys2Proof.Safety

/-! ### The listing of rule R86 -/

/-- `i` stands at micro-address `u` of the listing; a TGT field that its SEQ does not use is left open. -/
def RomAt (u : Nat) (i : Instr) : Prop :=
  match i with
  | .init _ _ _ | .write _ _ | .read _ _ | .badCommand _ => False
  | .tcuEval q _ => q = .cfgchk ∧ u = 0
  | .peOff q _ => q = .next ∧ u = 1
  | .selI2c q _ => q = .next ∧ u = 2
  | .setOpts q _ => q = .next ∧ u = 3
  | .wrFreq q _ => q = .next ∧ u = 4
  | .wrCcr q _ => q = .next ∧ u = 5
  | .wrTrise q _ => q = .next ∧ u = 6
  | .peOn q _ => q = .next ∧ u = 7
  | .done q _ => q = .endCmd ∧ (u = 8 ∨ u = 20 ∨ u = 34)
  | .ackOn q _ => q = .next ∧ u = 21
  | .genStart q _ => q = .next ∧ (u = 9 ∨ u = 22)
  | .pollSb q _ => q = .next ∧ (u = 10 ∨ u = 23)
  | .pollMb q _ => q = .next ∧ (u = 11 ∨ u = 24)
  | .txAddr q _ => q = .next ∧ (u = 12 ∨ u = 25)
  | .pollAddr q _ => q = .next ∧ (u = 13 ∨ u = 26)
  | .clrAddr q a => (q = .next ∧ u = 14) ∨ (q = .skip1 ∧ a = 30#6 ∧ u = 27)
  | .pollTxe q _ => q = .next ∧ u = 15
  | .txData q _ => q = .next ∧ u = 16
  | .pollBtf q a => q = .loopw ∧ a = 15#6 ∧ u = 17
  | .genStop q _ => q = .next ∧ u = 18
  | .pollStop q _ => q = .next ∧ (u = 19 ∨ u = 33)
  | .pollRxne q _ => q = .next ∧ (u = 28 ∨ u = 31)
  | .rxData q a => (q = .loopr ∧ a = 28#6 ∧ u = 29) ∨ (q = .next ∧ u = 32)
  | .nackStop q _ => q = .next ∧ u = 30
  | .abort q _ => q = .endCmd ∧ u = 35

/-- The listing can be looked up. -/
@[reducible] def decidableRomAt (u : Nat) (i : Instr) : Decidable (RomAt u i) := by
  cases i <;> dsimp only [RomAt] <;> infer_instance

/-- Whether the word decodes to an instruction that stands at `u`. -/
def wordAt (u : Nat) (w : Half) : Bool :=
  match decodeUop w with
  | .ok i => @decide (RomAt u i) (decidableRomAt u i)
  | .error _ => false

/-- The 36 words of rule R86 are the listing. -/
theorem romWords_listing : (romWords.zipIdx.all fun p => wordAt p.2 p.1) = true := by decide

/-- What the MTE fetches from the ROM stands at its address in the listing. -/
theorem romAt_of_fetch {s : State} {w : Half} {i : Instr} (hrom : s.rom = romWords) (hw : fetchWord s = some w)
    (hi : decodeUop w = .ok i) : RomAt s.m.upc.toNat i := by
  rw [fetchWord, hrom] at hw
  have hall := List.all_eq_true.1 romWords_listing (w, s.m.upc.toNat) (List.mk_mem_zipIdx_iff_getElem?.2 hw)
  simp only [wordAt, hi] at hall
  exact @of_decide_eq_true _ (decidableRomAt _ _) hall

/-! ### From place to place (rule R22) -/

/-- A micro-address from which a command goes on to the next with no byte completed: all but DONE, ABORT and where the
listing branches or counts. -/
abbrev StraightPlace (u : Nat) : Prop := u ≤ 33 ∧ u ≠ 8 ∧ u ≠ 17 ∧ u ≠ 20 ∧ u ≠ 27 ∧ u ≠ 29 ∧ u ≠ 32

/-- From such a place the next one fits the same command and count. -/
theorem placeAt_succ {op : CmdOp} {dir : Dir} {u i n : Nat} (h : PlaceAt op dir u i n) (hn : 0 < n)
    (hu : StraightPlace u) : PlaceAt op dir (u + 1) i n := by
  rcases h with ⟨_, hop⟩ | ⟨_, _, hop, hdir, _⟩ | ⟨_, _, hop, hdir, _⟩ | ⟨_, _⟩
  · exact .inl ⟨by omega, hop⟩
  · exact .inr (.inl ⟨by omega, by omega, hop, hdir, by omega⟩)
  · exact .inr (.inr (.inl ⟨by omega, by omega, hop, hdir, by omega⟩))
  · omega

/-- A place of the WRITE part of the ROM. -/
theorem placeAt_write {op : CmdOp} {dir : Dir} {u i n : Nat} (hu : 9 ≤ u ∧ u ≤ 20) :
    PlaceAt op dir u i n ↔ op = .write ∧ dir = .write ∧
      ((u ≤ 14 ∧ i = 0) ∨ (15 ≤ u ∧ u ≤ 17 ∧ i < n) ∨ (18 ≤ u ∧ i = n)) := by
  constructor
  · rintro (⟨_, _⟩ | ⟨_, _, h⟩ | ⟨_, _, _⟩ | ⟨_, _⟩)
    · omega
    · exact h
    · omega
    · omega
  · exact fun h => .inr (.inl ⟨hu.1, hu.2, h⟩)

/-- A place of the READ part of the ROM. -/
theorem placeAt_read {op : CmdOp} {dir : Dir} {u i n : Nat} (hu : 21 ≤ u ∧ u ≤ 34) :
    PlaceAt op dir u i n ↔ op = .read ∧ dir = .read ∧
      ((u ≤ 27 ∧ i = 0) ∨ (28 ≤ u ∧ u ≤ 29 ∧ i + 1 < n) ∨ (30 ≤ u ∧ u ≤ 32 ∧ i + 1 = n) ∨ (33 ≤ u ∧ i = n)) := by
  constructor
  · rintro (⟨_, _⟩ | ⟨_, _, _⟩ | ⟨_, _, h⟩ | ⟨_, _⟩)
    · omega
    · omega
    · exact h
    · omega
  · exact fun h => .inr (.inr (.inl ⟨hu.1, hu.2, h⟩))

/-- An error takes a WRITE or READ from any of its places to ABORT. -/
theorem placeAt_abort {op : CmdOp} {dir : Dir} {u i n : Nat} (h : PlaceAt op dir u i n) (hu : 9 ≤ u) :
    PlaceAt op dir 35 i n := by
  rcases h with ⟨_, _⟩ | ⟨_, _, hop, hdir, _⟩ | ⟨_, _, hop, hdir, _⟩ | ⟨_, hi, hop⟩
  · omega
  · exact .inr (.inr (.inr ⟨rfl, by omega, .inl ⟨hop, hdir⟩⟩))
  · exact .inr (.inr (.inr ⟨rfl, by omega, .inr ⟨hop, hdir⟩⟩))
  · exact .inr (.inr (.inr ⟨rfl, hi, hop⟩))

/-- The places at which `m.armed` may be 1, but for ABORT (rule R24). -/
abbrev ArmedPlace (u : Nat) : Prop := (12 ≤ u ∧ u ≤ 18) ∨ (25 ≤ u ∧ u ≤ 30)

/-- The micro-address after one of the ROM's. -/
theorem upc_succ {a : MicroAddr} (ha : a.toNat ≤ 35) : (a + 1).toNat = a.toNat + 1 := by
  bv_omega

/-- `m.idx` does not wrap while bytes are left. -/
theorem idx_succ {m : Mte} (hi : m.idx.toNat < transferLength m) : (m.idx + 1).toNat = m.idx.toNat + 1 := by
  unfold transferLength at hi
  bv_omega

/-- The loop of a WRITE (rule R85). -/
theorem applySeq_loopw (a : MicroAddr) (s : State) :
    applySeq .loopw a s =
      if s.m.idx.toNat < transferLength s.m then setUpc a s else setUpc (s.m.upc + 1) s := rfl

/-- The loop of a READ (rule R85). -/
theorem applySeq_loopr (a : MicroAddr) (s : State) :
    applySeq .loopr a s =
      if s.m.idx.toNat < transferLength s.m - 1 then setUpc a s else setUpc (s.m.upc + 1) s := rfl

/-- The branch on a transfer of one byte (rule R85). -/
theorem applySeq_skip1 (a : MicroAddr) (s : State) :
    applySeq .skip1 a s = if transferLength s.m = 1 then setUpc a s else setUpc (s.m.upc + 1) s := rfl

/-! ### States that meet the invariant -/

/-- The invariant speaks of the ROM, the parameters and the MTE only. -/
theorem mteInv_congr {s t : State} (h : MteInv s) (hrom : t.rom = s.rom) (hcfg : t.cfg = s.cfg) (hm : t.m = s.m) :
    MteInv t := by
  unfold MteInv
  rw [hrom, hcfg, hm]
  exact h

/-- An idle MTE carries no error and no armed window. -/
theorem mteInv_of_idle {t : State} (hrom : t.rom = romWords) (hupc : t.m.upc.toNat ≤ 35) (hb : t.m.busy = false)
    (herr : t.m.err = .none) (harmed : t.m.armed = false) (haph : t.m.aph = false) : MteInv t := by
  refine ⟨hrom, hupc, ?_, ?_, ?_, fun _ => ⟨herr, harmed, haph⟩, ?_, ?_⟩
  · simp [hb]
  · simp [hb]
  · simp [hb]
  · simp [haph]
  · simp [harmed]

/-- A command outside ABORT: it carries no error. -/
theorem mteInv_of_running {t : State} (hrom : t.rom = romWords) (hupc : t.m.upc.toNat ≤ 34)
    (hplace : placeOk t.m) (hcnt : t.cfg.pollBudget ≠ 0#16 → entersPoll romWords t.m.upc = true →
      1 ≤ t.m.cnt.toNat ∧ t.m.cnt.toNat ≤ t.cfg.pollBudget.toNat)
    (hb : t.m.busy = true) (herr : t.m.err = .none) (haph : t.m.aph = false)
    (harmed : t.m.armed = true → ArmedPlace t.m.upc.toNat) : MteInv t := by
  have hne : t.m.upc ≠ abortEntry := by
    intro e
    rw [e] at hupc
    exact absurd hupc (by decide)
  refine ⟨hrom, by omega, fun _ => hplace, fun _ => hcnt, fun _ => ?_, ?_, ?_, ?_⟩
  · simp [herr, hne]
  · simp [hb]
  · simp [haph]
  · exact fun h => (harmed h).imp_right .inl

/-- A command just accepted stands at its ROM entry, which is no poll. -/
theorem mteInv_of_started {t : State} (entry : MicroAddr) (hrom : t.rom = romWords) (hupc : t.m.upc = entry)
    (hentry : entry.toNat ≤ 34 ∧ entersPoll romWords entry = false)
    (hplace : PlaceAt t.m.op t.m.dir entry.toNat t.m.idx.toNat (transferLength t.m)) (hb : t.m.busy = true)
    (herr : t.m.err = .none) (haph : t.m.aph = false) (harmed : t.m.armed = false) : MteInv t := by
  subst hupc
  refine mteInv_of_running hrom hentry.1 hplace (fun _ h => ?_) hb herr haph (by simp [harmed])
  rw [hentry.2] at h
  cases h

/-- A command in ABORT: it carries an error. -/
theorem mteInv_of_aborting {t : State} (hrom : t.rom = romWords) (hupc : t.m.upc = abortEntry)
    (hplace : PlaceAt t.m.op t.m.dir 35 t.m.idx.toNat (transferLength t.m))
    (hcnt : t.cfg.pollBudget ≠ 0#16 → 1 ≤ t.m.cnt.toNat ∧ t.m.cnt.toNat ≤ t.cfg.pollBudget.toNat)
    (hb : t.m.busy = true) (herr : t.m.err ≠ .none) (haph : t.m.aph = true → t.m.armed = false) : MteInv t := by
  refine ⟨hrom, by rw [hupc]; decide, fun _ => ?_, fun _ h _ => hcnt h, fun _ => ?_, ?_, fun h => ⟨hupc, haph h⟩,
    fun _ => .inr (.inr hupc)⟩
  · rw [placeOk, hupc]
    exact hplace
  · simp [herr, hupc]
  · simp [hb]

theorem mteInv_rom {s : State} (hinv : MteInv s) : s.rom = romWords :=
  And.left hinv

/-- A running command stands at a place that fits it. -/
theorem mteInv_place {s : State} (hinv : MteInv s) (hb : s.m.busy = true) :
    PlaceAt s.m.op s.m.dir s.m.upc.toNat s.m.idx.toNat (transferLength s.m) := by
  obtain ⟨-, -, hplace, -⟩ := hinv
  exact hplace hb

/-- Outside ABORT `m.armed` is 1 in the armed window only (rule R24). -/
theorem mteInv_armedPlace {s : State} (hinv : MteInv s) (h : s.m.armed = true) (hu : s.m.upc.toNat ≤ 34) :
    ArmedPlace s.m.upc.toNat := by
  obtain ⟨-, -, -, -, -, -, -, hwindow⟩ := hinv
  rcases hwindow h with h | h | h
  · exact .inl h
  · exact .inr h
  · rw [h] at hu
    exact absurd hu (by decide)

/-! ### Micro-operations -/

/-- What the body of a micro-operation leaves of a running command: all but `m.idx`, `m.armed` and what the invariant
does not speak of. -/
structure SameCommand (s u : State) : Prop where
  rom : u.rom = s.rom
  busy : u.m.busy = s.m.busy
  upc : u.m.upc = s.m.upc
  op : u.m.op = s.m.op
  dir : u.m.dir = s.m.dir
  nm1 : u.m.nm1 = s.m.nm1
  err : u.m.err = s.m.err
  aph : u.m.aph = s.m.aph

theorem SameCommand.transferLength_eq {s u : State} (h : SameCommand s u) :
    transferLength u.m = transferLength s.m := by
  rw [transferLength, transferLength, h.nm1]

/-- What a body leaves that neither completes a byte nor opens or closes the armed window. -/
structure SameProgress (s u : State) : Prop extends SameCommand s u where
  idx : u.m.idx = s.m.idx
  armed : u.m.armed = s.m.armed

theorem sameProgress_withB (s : State) (b : Bc) : SameProgress s (s.withB b) := by
  constructor
  · constructor <;> rfl
  · rfl
  · rfl

section
variable {s u : State} (hinv : MteInv s) (hb : s.m.busy = true)
include hinv hb

/-- A running command outside ABORT carries no error and is in phase 0. -/
theorem mteInv_outside_abort (hu : s.m.upc.toNat ≤ 34) : s.m.err = .none ∧ s.m.aph = false := by
  obtain ⟨-, -, -, -, herr, -, haph, -⟩ := hinv
  have hne : s.m.upc ≠ abortEntry := by
    intro e
    rw [e] at hu
    exact absurd hu (by decide)
  constructor
  · by_contra h
    exact hne ((herr hb).1 h)
  · by_contra h
    exact hne (haph (by simpa using h)).1

/-- A completed body moves on to a place that fits what it has done. -/
theorem mteInv_moves (hsame : SameCommand s u) {a : MicroAddr} (hfrom : s.m.upc.toNat ≤ 34) (ha : a.toNat ≤ 34)
    (hne : a.toNat ≠ s.m.upc.toNat) (hplace : PlaceAt s.m.op s.m.dir a.toNat u.m.idx.toNat (transferLength s.m))
    (harmed : u.m.armed = true → ArmedPlace a.toNat) : MteInv (setUpc a u) := by
  obtain ⟨herr, haph⟩ := mteInv_outside_abort hinv hb hfrom
  have hrom : u.rom = romWords := hsame.rom.trans (mteInv_rom hinv)
  have hmoved : a ≠ u.m.upc := fun e => hne (by rw [e, hsame.upc])
  refine mteInv_of_running hrom ha ?_ ?_ (hsame.busy.trans hb) (hsame.err.trans herr) (hsame.aph.trans haph) harmed
  · change PlaceAt u.m.op u.m.dir a.toNat u.m.idx.toNat (transferLength u.m)
    rw [hsame.op, hsame.dir, hsame.transferLength_eq]
    exact hplace
  · intro hbudget hpoll
    rw [setUpc_m_cnt, if_pos ⟨hmoved, by rw [hrom]; exact hpoll⟩, setUpc_cfg]
    have : u.cfg.pollBudget.toNat ≠ 0 := fun e => hbudget (BitVec.eq_of_toNat_eq e)
    omega

/-- A completed body goes straight on, with no byte completed. -/
theorem mteInv_moves_on (hsame : SameCommand s u) (hidx : u.m.idx = s.m.idx) (q : Seq) (a : MicroAddr)
    (hq : q = .next ∨ q = .cfgchk) (hu : StraightPlace s.m.upc.toNat)
    (harmed : u.m.armed = true → ArmedPlace (s.m.upc.toNat + 1)) : MteInv (applySeq q a u) := by
  have hnext : (u.m.upc + 1).toNat = s.m.upc.toNat + 1 := by rw [hsame.upc, upc_succ (by omega)]
  have hseq : applySeq q a u = setUpc (u.m.upc + 1) u := by rcases hq with rfl | rfl <;> rfl
  rw [hseq]
  refine mteInv_moves hinv hb hsame (by omega) (by omega) (by omega) ?_ (by rw [hnext]; exact harmed)
  rw [hnext, hidx]
  exact placeAt_succ (mteInv_place hinv hb) (Nat.succ_pos _) hu

/-- A completed body that changes nothing the invariant speaks of goes straight on. -/
theorem mteInv_passes (hsame : SameProgress s u) (q : Seq) (a : MicroAddr) (hq : q = .next ∨ q = .cfgchk)
    (hu : StraightPlace s.m.upc.toNat) (hstop : s.m.upc.toNat ≠ 18 ∧ s.m.upc.toNat ≠ 30) : MteInv (applySeq q a u) := by
  refine mteInv_moves_on hinv hb hsame.toSameCommand hsame.idx q a hq hu fun h => ?_
  have hwindow := mteInv_armedPlace hinv (hsame.armed ▸ h) (by omega)
  omega

/-- A completed body takes one of two ways inside the armed window, each to a place that fits what it has done. -/
theorem mteInv_branches (hsame : SameCommand s u) {c : Prop} [Decidable c] {here : Nat} {tgt : MicroAddr}
    (hu : s.m.upc.toNat = here) (hhere : here ≤ 33 ∧ ArmedPlace (here + 1))
    (htgt : tgt.toNat ≤ 34 ∧ tgt.toNat ≠ here ∧ ArmedPlace tgt.toNat)
    (hjump : c → PlaceAt s.m.op s.m.dir tgt.toNat u.m.idx.toNat (transferLength s.m))
    (hgo : ¬ c → PlaceAt s.m.op s.m.dir (here + 1) u.m.idx.toNat (transferLength s.m)) :
    MteInv (if c then setUpc tgt u else setUpc (u.m.upc + 1) u) := by
  obtain ⟨htgt, hne, harmed⟩ := htgt
  have hnext : (u.m.upc + 1).toNat = here + 1 := by rw [hsame.upc, upc_succ (by omega), hu]
  split
  · next hc => exact mteInv_moves hinv hb hsame (by omega) htgt (by omega) (hjump hc) fun _ => harmed
  · next hc =>
    refine mteInv_moves hinv hb hsame (by omega) (by omega) (by omega) ?_ fun _ => by omega
    rw [hnext]
    exact hgo hc

/-- A poll that raises an error takes the command to ABORT, with a fresh budget. -/
theorem mteInv_raise (hsame : SameCommand s u) (hidx : u.m.idx = s.m.idx) {e : ErrKind} (he : e ≠ .none)
    (hu : 9 ≤ s.m.upc.toNat ∧ s.m.upc.toNat ≤ 34) : MteInv (raise e u) := by
  obtain ⟨-, haph⟩ := mteInv_outside_abort hinv hb hu.2
  have hrom : u.rom = romWords := hsame.rom.trans (mteInv_rom hinv)
  have hmoved : abortEntry ≠ u.m.upc := by
    intro h
    rw [hsame.upc] at h
    rw [← h] at hu
    exact absurd hu.2 (by decide)
  refine mteInv_of_aborting hrom rfl ?_ ?_ (hsame.busy.trans hb) he ?_
  · change PlaceAt u.m.op u.m.dir 35 u.m.idx.toNat (transferLength u.m)
    rw [hsame.op, hsame.dir, hsame.transferLength_eq, hidx]
    exact placeAt_abort (mteInv_place hinv hb) hu.1
  · intro hbudget
    have hpoll : entersPoll u.rom abortEntry = true := by rw [hrom]; decide
    have hloaded : (raise e u).m.cnt = u.cfg.pollBudget := if_pos ⟨hmoved, hpoll⟩
    rw [hloaded, raise_cfg]
    have : u.cfg.pollBudget.toNat ≠ 0 := fun e => hbudget (BitVec.eq_of_toNat_eq e)
    omega
  · rw [raise_m_aph, hsame.aph, haph]
    simp

end

end Sys2Proof.Machine

/-! ### Every step keeps the invariant -/

namespace Sys2Proof.Machine

open Sys2Proof.Safety

/-- Counting down stays within the budget (rule R133). -/
theorem countsDown_within {s : State} {c : BitVec 16} (hc : CountsDown s c) (hbudget : s.cfg.pollBudget ≠ 0#16)
    (hcnt : 1 ≤ s.m.cnt.toNat ∧ s.m.cnt.toNat ≤ s.cfg.pollBudget.toNat) :
    1 ≤ c.toNat ∧ c.toNat ≤ s.cfg.pollBudget.toNat := by
  obtain ⟨h0, -⟩ | ⟨-, hleft, rfl⟩ := hc
  · exact absurd h0 hbudget
  · have hpred : (s.m.cnt - 1).toNat = s.m.cnt.toNat - 1 := by bv_omega
    have hpos : (s.m.cnt - 1).toNat ≠ 0 := fun e => hleft (BitVec.eq_of_toNat_eq e)
    omega

section
variable {s u : State} {i : Instr} (hinv : MteInv s) (hb : s.m.busy = true)
include hinv hb

/-- A poll or ABORT that goes on waiting. -/
theorem mteInv_waits {b : Bc} {c : BitVec 16} (hc : CountsDown s c) :
    MteInv ((s.withB b).withM { s.m with cnt := c }) := by
  obtain ⟨hrom, hupc, hplace, hcnt, herr, hidle, haph, hwindow⟩ := hinv
  exact ⟨hrom, hupc, hplace, fun _ hbudget hpoll => countsDown_within (s := s) hc hbudget (hcnt hb hbudget hpoll), herr,
    hidle, haph, hwindow⟩

/-- A command that ends outside ABORT and leaves no armed window. -/
theorem mteInv_ends {m : Mte} (hu : s.m.upc.toNat ≤ 34) (hupc : m.upc = s.m.upc) (hidle : m.busy = false)
    (herr : m.err = s.m.err) (haph : m.aph = s.m.aph) (harmed : m.armed = false) : MteInv (s.withM m) := by
  obtain ⟨h1, h2⟩ := mteInv_outside_abort hinv hb hu
  exact mteInv_of_idle (mteInv_rom (s := s) hinv) (by rw [State.withM_m, hupc]; omega) hidle (herr.trans h1) harmed
    (haph.trans h2)

/-- The end of the WRITE loop, where a byte completes (rules R130, R145). -/
theorem mteInv_loopw (hsame : SameCommand s u) (hidx : u.m.idx = s.m.idx + 1) (hu : s.m.upc.toNat = 17) :
    MteInv (applySeq .loopw 15#6 u) := by
  have hplace := mteInv_place hinv hb
  rw [hu, placeAt_write (by decide)] at hplace
  obtain ⟨hop, hdir, hi⟩ := hplace
  have hcount : u.m.idx.toNat = s.m.idx.toNat + 1 := by rw [hidx, idx_succ (by omega)]
  have hn := hsame.transferLength_eq
  rw [applySeq_loopw]
  refine mteInv_branches hinv hb hsame hu (by decide) (by decide) (fun hc => ?_) fun hc => ?_
  · exact (placeAt_write (by decide)).2 ⟨hop, hdir, .inr (.inl ⟨by decide, by decide, by omega⟩)⟩
  · exact (placeAt_write (by decide)).2 ⟨hop, hdir, .inr (.inr ⟨by decide, by omega⟩)⟩

/-- The branch of a READ on its length: one byte goes straight to NACK_STOP (rules R131, R142). -/
theorem mteInv_skip1 (hsame : SameCommand s u) (hidx : u.m.idx = s.m.idx) (hu : s.m.upc.toNat = 27) :
    MteInv (applySeq .skip1 30#6 u) := by
  have hplace := mteInv_place hinv hb
  rw [hu, placeAt_read (by decide)] at hplace
  obtain ⟨hop, hdir, hi⟩ := hplace
  have hpos : 0 < transferLength s.m := Nat.succ_pos _
  have hn := hsame.transferLength_eq
  rw [applySeq_skip1]
  refine mteInv_branches hinv hb hsame hu (by decide) (by decide) (fun hc => ?_) fun hc => ?_
  · rw [hidx]
    exact (placeAt_read (by decide)).2 ⟨hop, hdir, .inr (.inr (.inl ⟨by decide, by decide, by omega⟩))⟩
  · rw [hidx]
    exact (placeAt_read (by decide)).2 ⟨hop, hdir, .inr (.inl ⟨by decide, by decide, by omega⟩)⟩

/-- The end of the READ loop, where a byte completes (rules R131, R149). -/
theorem mteInv_loopr (hsame : SameCommand s u) (hidx : u.m.idx = s.m.idx + 1) (hu : s.m.upc.toNat = 29) :
    MteInv (applySeq .loopr 28#6 u) := by
  have hplace := mteInv_place hinv hb
  rw [hu, placeAt_read (by decide)] at hplace
  obtain ⟨hop, hdir, hi⟩ := hplace
  have hcount : u.m.idx.toNat = s.m.idx.toNat + 1 := by rw [hidx, idx_succ (by omega)]
  have hn := hsame.transferLength_eq
  rw [applySeq_loopr]
  refine mteInv_branches hinv hb hsame hu (by decide) (by decide) (fun hc => ?_) fun hc => ?_
  · exact (placeAt_read (by decide)).2 ⟨hop, hdir, .inr (.inl ⟨by decide, by decide, by omega⟩)⟩
  · exact (placeAt_read (by decide)).2 ⟨hop, hdir, .inr (.inr (.inl ⟨by decide, by decide, by omega⟩))⟩

/-- The last byte of a READ (rules R131, R149). -/
theorem mteInv_lastByte (hsame : SameCommand s u) (hidx : u.m.idx = s.m.idx + 1) (harm : u.m.armed = s.m.armed)
    (a : MicroAddr) (hu : s.m.upc.toNat = 32) : MteInv (applySeq .next a u) := by
  have hplace := mteInv_place hinv hb
  rw [hu, placeAt_read (by decide)] at hplace
  obtain ⟨hop, hdir, hi⟩ := hplace
  have hcount : u.m.idx.toNat = s.m.idx.toNat + 1 := by rw [hidx, idx_succ (by omega)]
  have hnext : (u.m.upc + 1).toNat = 33 := by rw [hsame.upc, upc_succ (by omega), hu]
  refine mteInv_moves hinv hb hsame (by omega) (by omega) (by omega) ?_ fun h => ?_
  · rw [hnext]
    exact (placeAt_read (by decide)).2 ⟨hop, hdir, .inr (.inr (.inr ⟨by decide, by omega⟩))⟩
  · have hwindow := mteInv_armedPlace hinv (harm ▸ h) (by omega)
    omega

/-- ABORT's phase 0 goes on to phase 1, with the armed window closed (rule R204). -/
theorem mteInv_assertsStop {b : Bc} (hu : s.m.upc = abortEntry) :
    MteInv ((s.withB b).withM { s.m with armed := false, aph := true }) := by
  have hplace := mteInv_place hinv hb
  rw [hu] at hplace
  obtain ⟨hrom, -, -, hcnt, herr, -, -, -⟩ := hinv
  have hpoll : entersPoll romWords s.m.upc = true := by rw [hu]; decide
  exact mteInv_of_aborting hrom hu hplace (fun hbudget => hcnt hb hbudget hpoll) hb ((herr hb).2 hu) fun _ => rfl

/-- A CR1 write that is done. -/
theorem mteInv_cr1Written {v : Half} {after : State → State} (hi : WritesCr1 s i v after)
    (hat : RomAt s.m.upc.toNat i) (b : Bc) : MteInv (after (s.withB b)) := by
  cases hi with
  | genStop q a | nackStop q a =>
    obtain ⟨hq, hu⟩ := hat
    refine mteInv_moves_on hinv hb ?_ ?_ q a (.inl hq) (by omega) nofun
    · constructor <;> rfl
    · rfl
  | abort q a haph =>
    obtain ⟨-, hu⟩ := hat
    exact mteInv_assertsStop hinv hb (BitVec.eq_of_toNat_eq hu)
  | _ q a =>
    obtain ⟨hq, hu⟩ := hat
    exact mteInv_passes hinv hb (sameProgress_withB s _) q a (.inl hq) (by omega) (by omega)

/-- A poll whose condition holds. -/
theorem mteInv_pollCompletes {row : PollRow} {act : State → State} {q : Seq} {a : MicroAddr}
    (hi : PollOp i row act q a) (hat : RomAt s.m.upc.toNat i) (b : Bc) : MteInv (applySeq q a (act (s.withB b))) := by
  cases hi with
  | pollMb =>
    obtain ⟨hq, hu⟩ := hat
    refine mteInv_moves_on hinv hb ?_ ?_ q a (.inl hq) (by omega) fun _ => ?_
    · constructor <;> rfl
    · rfl
    · omega
  | pollBtf =>
    obtain ⟨rfl, rfl, hu⟩ := hat
    refine mteInv_loopw hinv hb ?_ ?_ hu
    · constructor <;> rfl
    · rfl
  | _ =>
    obtain ⟨hq, hu⟩ := hat
    exact mteInv_passes hinv hb (sameProgress_withB s b) q a (.inl hq) (by omega) (by omega)

/-- Every micro-operation that stands at `m.upc` keeps the invariant. -/
theorem mteInv_of_microNext {t : State} (h : MicroNext s i t) (hat : RomAt s.m.upc.toNat i) : MteInv t := by
  cases h with
  | refused | faulted | unwrittenByte => exact mteInv_congr hinv rfl rfl rfl
  | cr1Written hi => exact mteInv_cr1Written hinv hb hi hat _
  | done q a =>
    obtain ⟨rfl, hu⟩ := hat
    exact mteInv_ends hinv hb (by omega) rfl rfl rfl rfl rfl
  | tcuAccepts q a o =>
    obtain ⟨hq, hu⟩ := hat
    refine mteInv_passes hinv hb ?_ q a (.inr hq) (by omega) (by omega)
    constructor
    · constructor <;> rfl
    · rfl
    · rfl
  | tcuRejects q a =>
    obtain ⟨-, hu⟩ := hat
    have harmed : s.m.armed = false := by
      by_contra h
      have hwindow := mteInv_armedPlace hinv (by simpa using h) (by omega)
      omega
    exact mteInv_ends hinv hb (by omega) rfl rfl rfl rfl harmed
  | wrFreq q a | wrCcr q a | wrTrise q a | txAddr q a | txData q a =>
    obtain ⟨hq, hu⟩ := hat
    exact mteInv_passes hinv hb (sameProgress_withB s _) q a (.inl hq) (by omega) (by omega)
  | clrAddr q a =>
    rcases hat with ⟨hq, hu⟩ | ⟨rfl, rfl, hu⟩
    · exact mteInv_passes hinv hb (sameProgress_withB s _) q a (.inl hq) (by omega) (by omega)
    · exact mteInv_skip1 hinv hb (sameProgress_withB s _).toSameCommand rfl hu
  | rxData q a =>
    rcases hat with ⟨rfl, rfl, hu⟩ | ⟨rfl, hu⟩
    · refine mteInv_loopr hinv hb ?_ ?_ hu
      · constructor <;> rfl
      · rfl
    · refine mteInv_lastByte hinv hb ?_ ?_ ?_ a hu
      · constructor <;> rfl
      · rfl
      · rfl
  | pollRaises c hi _ he =>
    refine mteInv_raise hinv hb ?_ ?_ he ?_
    · constructor <;> rfl
    · rfl
    · cases hi <;> obtain ⟨-, hu⟩ := hat <;> omega
  | pollCompletes hi => exact mteInv_pollCompletes hinv hb hi hat _
  | pollWaits _ _ hc => exact mteInv_waits hinv hb hc
  | abortEnds q a c n haph =>
    obtain ⟨rfl, -⟩ := hat
    obtain ⟨hrom, hupc, -, -, -, -, hphase, -⟩ := hinv
    exact mteInv_of_idle hrom hupc rfl rfl (hphase haph).2 rfl
  | abortWaits q a haph hc => exact mteInv_waits hinv hb (b := s.b) hc

end

section
variable {s t : State} (hinv : MteInv s)
include hinv

/-- An accepted command starts at the first place of its part of the ROM, which is no poll (rule R83). -/
theorem mteInv_of_latches {i : Instr} {m : Mte} (hb : s.m.busy = false) (hm : Latches s.m i m) :
    MteInv (s.withM m) := by
  obtain ⟨hrom, hupc, -, -, -, hidle, -, -⟩ := hinv
  obtain ⟨herr, harmed, haph⟩ := hidle hb
  cases hm with
  | init => exact mteInv_of_started 0#6 hrom rfl (by decide) (.inl ⟨by decide, rfl⟩) rfl rfl haph rfl
  | write =>
    have hplace (n : Nat) : PlaceAt .write .write 9 0 n := (placeAt_write (by decide)).2 ⟨rfl, rfl, .inl (by decide)⟩
    exact mteInv_of_started 9#6 hrom rfl (by decide) (hplace _) rfl rfl haph rfl
  | read =>
    have hplace (n : Nat) : PlaceAt .read .read 21 0 n := (placeAt_read (by decide)).2 ⟨rfl, rfl, .inl (by decide)⟩
    exact mteInv_of_started 21#6 hrom rfl (by decide) (hplace _) rfl rfl haph rfl
  | badCommand => exact mteInv_of_idle hrom hupc hb herr harmed haph

theorem mteInv_of_stepNext (h : StepNext s t) : MteInv t := by
  cases h with
  | host h =>
    cases h with
    | latched p hb hm => exact mteInv_congr (mteInv_of_latches hinv hb hm) rfl rfl rfl
    | _ => exact mteInv_congr hinv rfl rfl rfl
  | stutters => exact hinv
  | reservedWord => exact mteInv_congr hinv rfl rfl rfl
  | micro hb hw hi h => exact mteInv_of_microNext hinv hb h (romAt_of_fetch (mteInv_rom hinv) hw hi)
  | bus h =>
    obtain ⟨b, evs, rfl⟩ := busStep_shape h
    exact mteInv_congr hinv rfl rfl rfl

end

end Sys2Proof.Machine

namespace Sys2Proof.Proofs

open Sys2Proof.Machine Sys2Proof.Safety

/-- Settles O47: the invariant holds at every launch, and each agent's step keeps it. -/
theorem mteInvariantHoldsAlways : Obligations.MteInvariantHoldsAlways := by
  refine ⟨fun c p q => mteInv_of_idle rfl (Nat.zero_le 35) rfl rfl rfl rfl, fun s t hinv h => ?_⟩
  obtain ⟨q, n, hs⟩ := step_stepNext h
  exact mteInv_of_stepNext (s := { s with schedule := q, turnsDrawn := n }) hinv hs

end Sys2Proof.Proofs

/-! The interface of the block: the MTE's turn by the word it fetches, the HI map and its accesses, and what the host's
turn leaves alone (rules R19, R51 to R56, R61, R66, R87). -/

namespace Sys2Proof.Machine

open Sys2Proof.Safety

/-! ### A step takes the next turn (rules R19, R61, R65, R87, R210) -/

theorem recordedFault_eq_none {s : State} (h : ¬ Faulted s) : recordedFault s = none := by
  obtain ⟨hbuf, hstop⟩ := not_or.1 h
  rw [recordedFault, if_neg hbuf, if_neg hstop]

theorem step_of_schedule {s : State} {τ : Turn} {rest : List Turn} (hf : ¬ Faulted s) (hq : s.schedule = τ :: rest) :
    step s = runTurn τ { s with schedule := rest } := by
  have hnext : nextTurn s = (τ, { s with schedule := rest }) := by rw [nextTurn, hq]
  rw [step, stepBody, recordedFault_eq_none hf, hnext]

section
variable {s : State}

theorem mteTurn_idle (hb : s.m.busy = false) : mteTurn s = .next s := by
  simp [mteTurn, hb]

theorem mteTurn_decoded {w : Half} {i : Instr} (hb : s.m.busy = true) (hw : fetchWord s = some w)
    (hi : decodeUop w = .ok i) : mteTurn s = exec i s := by
  simp [mteTurn, hb, hw, hi]

theorem mteTurn_reserved {w : Half} {e : DecodeError} (hb : s.m.busy = true) (hw : fetchWord s = some w)
    (he : decodeUop w = .error e) : mteTurn s = .next s.markRefusal := by
  simp [mteTurn, hb, hw, he]

end

/-! ### The HI map (rules R51, R56, R60) -/

theorem hiTarget_buf {i : Nat} (hi : i < bufDepth) : hiTarget (0x100 + i) = .buf i := by
  have hdepth : bufDepth = 256 := rfl
  rw [hiTarget, if_neg (by omega), if_neg (by omega), if_neg (by omega), if_neg (by omega), if_pos (by omega),
    Nat.add_sub_cancel_left]

/-- The accesses that the HI map takes: aligned words at the three word registers, bytes at BUF. -/
theorem hiFits_iff (w : Width) (off : Nat) :
    hiFits (hiTarget off) w off = true ↔
      (off < 0x00C ∧ w = .word ∧ off % 4 = 0) ∨ (0x100 ≤ off ∧ off < 0x200 ∧ w = .byte) := by
  unfold hiTarget
  split_ifs <;> grind [hiFits]

theorem hostAccess_unfit {w : Width} {off : Nat} (h : ¬ hiFits (hiTarget off) w off = true) (v : Word) (s : State) :
    hostAccess (.read w off) s = .next s.markRefusal ∧ hostAccess (.write w off v) s = .next s.markRefusal := by
  simp only [hostAccess, hostRead, hostWrite, if_neg h, and_self]

/-- STATUS and CFGOUT are read-only, at any width. -/
theorem hostWrite_readOnly {off : Nat} (h : hiTarget off = .status ∨ hiTarget off = .cfgout) (w : Width) (v : Word)
    (s : State) : hostWrite w off v s = .next s.markRefusal := by
  unfold hostWrite
  rcases h with h | h <;> rw [h] <;> split <;> rfl

/-! ### BUF through the HI map (rules R53, R54, R56) -/

section
variable {i : Nat} (hi : i < bufDepth) (s : State)
include hi

theorem hostAccess_readBuf : hostAccess (.read .byte (0x100 + i)) s = .next (hostReadBuf i s) := by
  rw [hostAccess, hostRead, hiTarget_buf hi]
  rfl

theorem hostAccess_writeBuf (v : Word) :
    hostAccess (.write .byte (0x100 + i) v) s = .next (hostWriteBuf i (v.setWidth 8) s) := by
  rw [hostAccess, hostWrite, hiTarget_buf hi]
  rfl

end

/-! ### The word registers (rules R27, R28) -/

/-- Fields side by side weigh as a sum. -/
theorem toNat_append_eq_add {n k : Nat} (x : BitVec n) (y : BitVec k) :
    (x ++ y).toNat = 2 ^ k * x.toNat + y.toNat := by
  rw [BitVec.toNat_append, ← Nat.shiftLeft_add_eq_or_of_lt y.isLt, Nat.shiftLeft_eq, Nat.mul_comm]

theorem statusImage_toNat (m : Mte) :
    (statusImage m).toNat = m.busy.toNat + 2 * m.nostop.toNat + 2 ^ 4 * m.result.code.toNat +
      2 ^ 8 * m.errupc.toNat + 2 ^ 16 * m.idx.toNat := by
  simp only [statusImage, toNat_append_eq_add, BitVec.toNat_ofBool, BitVec.toNat_ofNat]
  omega

theorem cfgoutImage_toNat (m : Mte) :
    (cfgoutImage m).toNat = m.freq.toNat + 2 ^ 8 * m.trise.toNat + 2 ^ 16 * m.ccr.toNat + 2 ^ 28 * m.fs.toNat +
      2 ^ 29 * m.dutybit.toNat + 2 ^ 31 * m.cfgvalid.toNat := by
  simp only [cfgoutImage, toNat_append_eq_add, BitVec.toNat_ofBool, BitVec.toNat_ofNat]
  omega

/-! ### What the host's turn leaves alone (rules R56, R61, R66, R91) -/

/-- A command descriptor always answers a next state. -/
theorem exec_command_answers {i : Instr} (hi : isMicro i = false) (s : State) : ∃ t, exec i s = .next t := by
  cases i with
  | init | write | read | badCommand => exact ⟨_, rfl⟩
  | _ => cases hi

/-- A host access always answers a next state. -/
theorem hostAccess_answers (a : HostAccess) (s : State) : ∃ t, hostAccess a s = .next t := by
  cases a with
  | read w off => exact ⟨_, rfl⟩
  | write w off v =>
    rw [hostAccess, hostWrite]
    split
    · split
      · exact exec_command_answers (isMicro_decodeCmd v) s
      all_goals exact ⟨_, rfl⟩
    · exact ⟨_, rfl⟩

/-- The host's turn always answers a next state. -/
theorem hostTurn_answers (s : State) : ∃ t, hostTurn s = .next t := by
  unfold hostTurn
  split
  · exact ⟨_, rfl⟩
  · exact hostAccess_answers _ _
  · exact ⟨_, rfl⟩
  · exact ⟨_, rfl⟩

/-- An access does not change the program that is left. -/
theorem hostAccess_program {a : HostAccess} {s t : State} (h : hostAccess a s = .next t) : t.program = s.program := by
  cases a with
  | read w off =>
    cases h
    obtain ⟨v, f, r, e⟩ := hostRead_shape w off s
    rw [e]
  | write w off v =>
    rw [hostAccess, hostWrite] at h
    split at h
    · split at h
      · rcases exec_command (isMicro_decodeCmd v) h with ⟨_, rfl⟩ | ⟨_, m, _, rfl⟩ <;> rfl
      · cases h
        unfold hostWriteBuf
        split <;> rfl
      all_goals cases h; rfl
    · cases h; rfl

/-- The host's turn keeps the program, takes its first step off, or puts a read's fetches in the place of its wait. -/
theorem hostTurn_program {s t : State} (h : hostTurn s = .next t) :
    t.program = s.program ∨ t.program = s.program.tail ∨
      ∃ n, s.program.head? = some (.wait (some (.read n))) ∧ t.program = fetchBytes n ++ s.program.tail := by
  unfold hostTurn at h
  split at h
  · cases h; exact .inl rfl
  · next hp => rw [hp]; exact .inr (.inl (hostAccess_program h))
  · next c rest hp =>
    cases h
    rcases waitOnce_cases c rest s with ⟨_, e⟩ | ⟨_, e⟩ <;> rw [e]
    · exact .inl rfl
    · obtain ⟨_, p, e, hrest | ⟨n, rfl, hfetch⟩⟩ := endWait_shape c (statusImage s.m)
        { s with hostData := some (.word (statusImage s.m)), program := rest } <;> rw [e, hp]
      · exact .inr (.inl hrest)
      · exact .inr (.inr ⟨n, rfl, hfetch⟩)
  · next i rest hp =>
    cases h
    obtain ⟨_, _, _, _, e, _⟩ := fetchByte_shape i { s with program := rest }
    rw [e, hp]
    exact .inr (.inl rfl)

/-- The host's turn leaves the bus controller and its trace alone, and while a command runs the MTE and BUF too. -/
theorem HostNext.frame {s t : State} (h : HostNext s t) :
    t.b = s.b ∧ t.trace = s.trace ∧ t.rom = s.rom ∧ t.cfg = s.cfg ∧ (s.m.busy = true → t.m = s.m ∧ t.buf = s.buf) := by
  cases h with
  | wroteBuf _ _ hb | latched _ hb => exact ⟨rfl, rfl, rfl, rfl, fun hbusy => by simp [hb] at hbusy⟩
  | _ => exact ⟨rfl, rfl, rfl, rfl, fun _ => ⟨rfl, rfl⟩⟩

/-! ### The canonical form of BUF and of the caller's buffer (rules R52, R53, R149) -/

section
variable {s t : State}

/-- `t` has its two buffers in canonical form if `s` has. -/
def KeepsCanonical (s t : State) : Prop :=
  (Memory.wf s.buf = true → Memory.wf t.buf = true) ∧
    (Memory.wf s.callerBuffer = true → Memory.wf t.callerBuffer = true)

/-- A micro-operation leaves BUF alone or writes a byte that BUF has: RX_DATA with `m.idx` below 256. -/
theorem MicroNext.buf_cases {i : Instr} (h : MicroNext s i t) :
    t.buf = s.buf ∨ s.m.idx.toNat < bufDepth ∧ ∃ v, t.buf = s.buf.write s.m.idx.toNat v := by
  by_cases hrx : ∃ q a, i = .rxData q a
  · obtain ⟨q, a, rfl⟩ := hrx
    cases h with
    | rxData _ _ v hidx => exact .inr ⟨hidx, v, by simp [countByte]⟩
    | refused hi | faulted hi | cr1Written hi | pollRaises _ hi | pollCompletes hi | pollWaits hi => cases hi
  · exact .inl (h.buf_frame.1 fun q a e => hrx ⟨q, a, e⟩)

theorem MicroNext.keepsCanonical {i : Instr} (h : MicroNext s i t) : KeepsCanonical s t := by
  obtain ⟨-, -, -, -, -, -, hcaller, -, -⟩ := h.surroundings_frame
  refine ⟨fun hwf => ?_, fun hwf => hcaller ▸ hwf⟩
  rcases h.buf_cases with e | ⟨hidx, v, e⟩ <;> rw [e]
  · exact hwf
  · exact Memory.wf_write s.buf _ v hidx hwf

theorem HostNext.keepsCanonical (h : HostNext s t) : KeepsCanonical s t := by
  cases h with
  | wroteBuf _ v _ hi => exact ⟨Memory.wf_write s.buf _ _ hi, id⟩
  | fetched _ v hi => exact ⟨id, Memory.wf_write s.callerBuffer _ _ hi⟩
  | _ => exact ⟨id, id⟩

theorem StepNext.keepsCanonical (h : StepNext s t) : KeepsCanonical s t := by
  cases h with
  | host h => exact h.keepsCanonical
  | stutters | reservedWord => exact ⟨id, id⟩
  | micro _ _ _ h => exact h.keepsCanonical
  | bus h =>
    obtain ⟨b, evs, rfl⟩ := busStep_shape h
    exact ⟨id, id⟩

end

end Sys2Proof.Machine

/-! ### The statements on the host interface and on what a step runs -/

namespace Sys2Proof.Proofs

open Sys2Proof.Machine Sys2Proof.Safety

/-- Settles O45, from the frame of the host's turn and what becomes of the program. -/
theorem hostNeverReachesTheController : Obligations.HostNeverReachesTheController := by
  intro s
  obtain ⟨u, h⟩ := hostTurn_answers s
  obtain ⟨hb, htrace, hrom, hcfg, hbusy⟩ := (hostTurn_hostNext h).frame
  exact ⟨u, h, hb, htrace, hrom, hcfg, hostTurn_program h, hbusy⟩

/-- Settles O49: only RX_DATA, a host write of BUF and a fetch of the caller write a buffer, each below 256. -/
theorem bufStaysCanonical : Obligations.BufStaysCanonical := by
  intro s t h
  obtain ⟨q, n, hs⟩ := step_stepNext h
  exact hs.keepsCanonical

/-- Settles O7, from the step on a schedule and the three ways of the MTE's turn. -/
theorem stepRunsTheDecodedMicroInstruction : Obligations.StepRunsTheDecodedMicroInstruction := by
  refine ⟨fun s τ rest hf hq => step_of_schedule hf hq, fun s rest w i hf hq hb hw hi => ?_, fun s => ⟨?_, ?_⟩⟩
  · rw [step_of_schedule hf hq]
    exact mteTurn_decoded (s := { s with schedule := rest }) hb hw hi
  · exact mteTurn_idle
  · exact fun w e hb hw he => mteTurn_reserved hb hw he

/-- Settles O39: an access of BUF is a read or write of its byte while idle, and is refused while a command runs. -/
theorem hostWritesAndReadsBuf : Obligations.HostWritesAndReadsBuf := by
  intro i s hi
  refine ⟨fun v hb => ?_, fun v hb hv => ?_, fun hb hv => ?_, fun hb => ⟨?_, fun v => ?_⟩⟩
  · refine ⟨s.buf.write i (v.setWidth 8), ?_, fun j hj => Memory.read_write_ne s.buf i j _ hj, ?_⟩
    · rw [Memory.read_write_same, BitVec.setWidth_eq_extractLsb' (by decide)]
    · rw [hostAccess_writeBuf hi, hostWriteBuf, hb]
      rfl
  · rw [hostAccess_readBuf hi, hostReadBuf, hb, hv]
    rfl
  · rw [hostAccess_readBuf hi, hostReadBuf, hb, hv]
    rfl
  · rw [hostAccess_readBuf hi, hostReadBuf, hb]
    rfl
  · rw [hostAccess_writeBuf hi, hostWriteBuf, hb]
    rfl

/-- Settles O40: the images by the weights of their fields. -/
theorem hostReadsTheWordRegisters : Obligations.HostReadsTheWordRegisters := fun s =>
  ⟨rfl, ⟨statusImage s.m, statusImage_toNat s.m, rfl⟩, ⟨cfgoutImage s.m, cfgoutImage_toNat s.m, rfl⟩⟩

/-- Settles O41: none of these accesses fits the HI map, and STATUS and CFGOUT take no write. -/
theorem hostAccessesThatAreRefused : Obligations.HostAccessesThatAreRefused := by
  intro w off v s
  refine ⟨fun h => hostAccess_unfit ?_ v s, fun h => hostWrite_readOnly ?_ w v s⟩
  · rw [hiFits_iff]
    rintro (⟨hoff, hw, ha⟩ | ⟨hlo, hup, hw⟩)
    · rcases h with h | h | ⟨_, h⟩ | h
      · omega
      · omega
      · exact h.elim (fun h => h hw) fun h => h ha
      · omega
    · rcases h with h | h | h | ⟨_, _, h⟩
      · omega
      · omega
      · omega
      · exact h hw
  · exact h.imp (fun h => by rw [h]; rfl) fun h => by rw [h]; rfl

end Sys2Proof.Proofs

/-! Encoding and decoding: the words of both formats as their fields side by side, and that a decoder reads the fields
back (rules R80 to R89). -/

namespace Sys2Proof

open Sys2Proof.Machine

/-! ### Fields of a word -/

/-- A bit of a word as a field of one bit. -/
theorem ofBool_getLsbD_eq_extractLsb' {n : Nat} (v : BitVec n) (k : Nat) :
    BitVec.ofBool (v.getLsbD k) = v.extractLsb' k 1 := by
  rw [BitVec.getLsbD_eq_extractLsb']
  rcases BitVec.eq_zero_or_eq_one (v.extractLsb' k 1) with h | h <;> rw [h] <;> rfl

/-- A bit of a word is 0 when its field of one bit is. -/
theorem getLsbD_eq_false_iff {n : Nat} (v : BitVec n) (k : Nat) : v.getLsbD k = false ↔ v.extractLsb' k 1 = 0#1 := by
  rw [← ofBool_getLsbD_eq_extractLsb']
  cases v.getLsbD k <;> decide

/-- A 16-bit word is the fields of rule R85 side by side. -/
theorem half_fields (w : Half) :
    w.extractLsb' 14 2 ++ w.extractLsb' 8 6 ++ w.extractLsb' 5 3 ++ w.extractLsb' 0 5 = w := by
  simp only [BitVec.extractLsb'_append_extractLsb'_eq_extractLsb', BitVec.extractLsb'_eq_self]

/-- A 32-bit word is the fields of rule R81 side by side. -/
theorem word_initFields (v : Word) :
    v.extractLsb' 4 28 ++ v.extractLsb' 3 1 ++ v.extractLsb' 2 1 ++ v.extractLsb' 0 2 = v := by
  simp only [BitVec.extractLsb'_append_extractLsb'_eq_extractLsb', BitVec.extractLsb'_eq_self]

/-- A 32-bit word is the fields of rule R82 side by side. -/
theorem word_transferFields (v : Word) :
    v.extractLsb' 24 8 ++ v.extractLsb' 16 8 ++ v.extractLsb' 15 1 ++ v.extractLsb' 8 7 ++ v.extractLsb' 2 6 ++
      v.extractLsb' 0 2 = v := by
  simp only [BitVec.extractLsb'_append_extractLsb'_eq_extractLsb', BitVec.extractLsb'_eq_self]

/-! ### MODE, DUTY and SEQ -/

theorem decodeMode_bit (mode : BusMode) : decodeMode (mode.bit.getLsbD 0) = mode := by
  cases mode <;> rfl

theorem decodeDuty_bit (duty : Duty) : decodeDuty (duty.bit.getLsbD 0) = duty := by
  cases duty <;> rfl

theorem bit_decodeMode (b : Bool) : (decodeMode b).bit = BitVec.ofBool b := by
  cases b <;> rfl

theorem bit_decodeDuty (b : Bool) : (decodeDuty b).bit = BitVec.ofBool b := by
  cases b <;> rfl

@[simp] theorem decodeSeq_code (q : Seq) : decodeSeq q.code = some q := by
  cases q <;> rfl

theorem Seq.code_toNat_lt (q : Seq) : q.code.toNat < 6 := by
  cases q <;> decide

theorem Seq.eq_code_of_decodeSeq {v : BitVec 3} {q : Seq} (h : decodeSeq v = some q) : v = q.code := by
  unfold decodeSeq at h
  split at h <;> cases h <;> exact BitVec.eq_of_toNat_eq ‹_›

/-- The codes 6 and 7 are the only reserved ones (rule R85). -/
theorem Seq.exists_eq_code {v : BitVec 3} (h : v.toNat < 6) : ∃ q : Seq, v = q.code := by
  have hsome : ∀ v : BitVec 3, v.toNat < 6 → (decodeSeq v).isSome := by decide
  obtain ⟨q, hq⟩ := Option.isSome_iff_exists.1 (hsome v h)
  exact ⟨q, Seq.eq_code_of_decodeSeq hq⟩

/-! ### Micro-instruction words (rules R85, R87) -/

/-- A micro-instruction word: its fields side by side, bits [15:14] being 0 (rule R85). -/
def uopWord (op : BitVec 5) (seq : Seq) (tgt : MicroAddr) : Half := 0#2 ++ tgt ++ seq.code ++ op

section
variable (op : BitVec 5) (q : Seq) (a : MicroAddr)

/-- The encoder puts the fields side by side. -/
theorem encodeUop_eq : encodeUop op q a = .uop (uopWord op q a) := by
  rw [encodeUop, ← BitVec.setWidth_eq (uopWord op q a), uopWord]
  simp only [BitVec.setWidth_append_eq_shiftLeft_setWidth_or, BitVec.shiftLeft_or_distrib, ← BitVec.shiftLeft_add]
  simp only [Nat.reduceLeDiff, Nat.reducePow, Nat.ofNat_pos, BitVec.setWidth_ofNat_of_le_of_lt, Nat.reduceAdd,
    BitVec.zero_shiftLeft, BitVec.zero_or]
  rw [BitVec.or_comm, BitVec.or_comm (BitVec.setWidth 16 op), ← BitVec.or_assoc]

@[simp] theorem uopWord_op : (uopWord op q a).extractLsb' 0 5 = op := BitVec.extractLsb'_append_eq_right

@[simp] theorem uopWord_seq : (uopWord op q a).extractLsb' 5 3 = q.code := by
  rw [uopWord, BitVec.extractLsb'_append_eq_of_le (by decide)]
  exact BitVec.extractLsb'_append_eq_right

@[simp] theorem uopWord_tgt : (uopWord op q a).extractLsb' 8 6 = a := by
  rw [uopWord, BitVec.extractLsb'_append_eq_of_le (by decide), BitVec.extractLsb'_append_eq_of_le (by decide)]
  exact BitVec.extractLsb'_append_eq_right

@[simp] theorem uopWord_reserved : (uopWord op q a).extractLsb' 14 2 = 0#2 := by
  rw [uopWord, BitVec.extractLsb'_append_eq_of_le (by decide), BitVec.extractLsb'_append_eq_of_le (by decide)]
  exact BitVec.extractLsb'_append_eq_left

end

/-- A word with no reserved bit set is the word of its fields. -/
theorem eq_uopWord {w : Half} {q : Seq} (hres : w.extractLsb' 14 2 = 0#2) (hseq : w.extractLsb' 5 3 = q.code) :
    w = uopWord (w.extractLsb' 0 5) q (w.extractLsb' 8 6) := by
  rw [uopWord, ← hseq, ← hres, half_fields]

/-- What decodes is the word of an OP code, a SEQ kind and a target, and the OP code names the instruction. -/
theorem decodeUop_eq_ok_iff {w : Half} {i : Instr} :
    decodeUop w = .ok i ↔ ∃ op q a, w = uopWord op q a ∧ decodeOp op q a = some i := by
  constructor
  · intro h
    unfold decodeUop at h
    split at h
    · cases h
    · next hres =>
      split at h
      · cases h
      · next q hseq =>
        split at h
        · cases h
        · next hop =>
          cases h
          exact ⟨_, q, _, eq_uopWord (not_not.1 hres) (Seq.eq_code_of_decodeSeq hseq), hop⟩
  · rintro ⟨op, q, a, rfl, hop⟩
    simp [decodeUop, hop]

/-- The OP codes up to 0x18 are the ones that name a micro-operation (rule R87). -/
theorem exists_decodeOp_iff (op : BitVec 5) (q : Seq) (a : MicroAddr) :
    (∃ i, decodeOp op q a = some i) ↔ op.toNat ≤ 0x18 := by
  unfold decodeOp
  split
  case h_26 =>
    simp only [imp_false] at *
    exact iff_of_false (by simp) (by omega)
  all_goals exact iff_of_true ⟨_, rfl⟩ (by omega)

/-- The micro-operation that an OP code names encodes with that code. -/
theorem encode_of_decodeOp {op : BitVec 5} {q : Seq} {a : MicroAddr} {i : Instr} (h : decodeOp op q a = some i) :
    encode i = encodeUop op q a := by
  unfold decodeOp at h
  split at h <;> cases h <;> exact congrArg (encodeUop · q a) (BitVec.eq_of_toNat_eq (Eq.symm ‹_›))

/-- The word of an OP code decodes to the micro-operation that the code names. -/
theorem decode_encodeUop {op : BitVec 5} {q : Seq} {a : MicroAddr} {i : Instr} (h : decodeOp op q a = some i) :
    decode (encodeUop op q a) = .ok i := by
  rw [encodeUop_eq]
  exact decodeUop_eq_ok_iff.2 ⟨op, q, a, rfl, h⟩

theorem encode_of_decodeUop {w : Half} {i : Instr} (h : decodeUop w = .ok i) : encode i = .uop w := by
  obtain ⟨op, q, a, rfl, hop⟩ := decodeUop_eq_ok_iff.1 h
  rw [encode_of_decodeOp hop, encodeUop_eq]

/-- The ROM words that decode are those with no field reserved. -/
theorem exists_decodeUop_iff (w : Half) :
    (∃ i, decodeUop w = .ok i) ↔
      w.extractLsb' 14 2 = 0#2 ∧ (w.extractLsb' 5 3).toNat < 6 ∧ (w.extractLsb' 0 5).toNat ≤ 0x18 := by
  constructor
  · rintro ⟨i, h⟩
    obtain ⟨op, q, a, rfl, hop⟩ := decodeUop_eq_ok_iff.1 h
    rw [uopWord_reserved, uopWord_seq, uopWord_op]
    exact ⟨rfl, Seq.code_toNat_lt q, (exists_decodeOp_iff op q a).1 ⟨i, hop⟩⟩
  · rintro ⟨hres, hseq, hop⟩
    obtain ⟨q, hq⟩ := Seq.exists_eq_code hseq
    obtain ⟨i, hi⟩ := (exists_decodeOp_iff _ q (w.extractLsb' 8 6)).2 hop
    exact ⟨i, decodeUop_eq_ok_iff.2 ⟨_, q, _, eq_uopWord hres hq, hi⟩⟩

/-! ### Command descriptors (rules R81 to R84) -/

/-- An INIT descriptor: its fields side by side (rule R81). -/
def initWord (mode : BusMode) (duty : Duty) (clk : BitVec 28) : Word := clk ++ duty.bit ++ mode.bit ++ 1#2

/-- A WRITE or READ descriptor: its fields side by side, the reserved ones being 0 (rule R82). -/
def transferWord (op : BitVec 2) (addr : BitVec 7) (lenm1 : BitVec 8) : Word :=
  0#8 ++ lenm1 ++ 0#1 ++ addr ++ 0#6 ++ op

/-- The reserved bits of a WRITE or READ descriptor are 0 (rule R82). -/
def ReservedZero (v : Word) : Prop :=
  v.extractLsb' 2 6 = 0#6 ∧ v.getLsbD 15 = false ∧ v.extractLsb' 24 8 = 0#8

section
variable (mode : BusMode) (duty : Duty) (clk : BitVec 28)

theorem encode_init : encode (.init mode duty clk) = .cmd (initWord mode duty clk) := by
  rw [encode, ← BitVec.setWidth_eq (initWord mode duty clk), initWord]
  simp only [BitVec.setWidth_append_eq_shiftLeft_setWidth_or, BitVec.shiftLeft_or_distrib, ← BitVec.shiftLeft_add]
  simp only [Nat.reduceLeDiff, Nat.reducePow, Nat.one_lt_ofNat, BitVec.setWidth_ofNat_of_le_of_lt, Nat.reduceAdd]
  rw [BitVec.or_comm, BitVec.or_comm (_ ||| _) (BitVec.setWidth 32 duty.bit <<< 3), BitVec.or_comm 1#32,
    ← BitVec.or_assoc, ← BitVec.or_assoc]

@[simp] theorem initWord_op : (initWord mode duty clk).extractLsb' 0 2 = 1#2 := BitVec.extractLsb'_append_eq_right

theorem initWord_mode : (initWord mode duty clk).getLsbD 2 = mode.bit.getLsbD 0 := by
  rw [initWord, BitVec.getLsbD_append, BitVec.getLsbD_append]
  rfl

theorem initWord_duty : (initWord mode duty clk).getLsbD 3 = duty.bit.getLsbD 0 := by
  rw [initWord, BitVec.getLsbD_append, BitVec.getLsbD_append, BitVec.getLsbD_append]
  rfl

@[simp] theorem initWord_clk : (initWord mode duty clk).extractLsb' 4 28 = clk := by
  rw [initWord, BitVec.extractLsb'_append_eq_of_le (by decide), BitVec.extractLsb'_append_eq_of_le (by decide)]
  exact BitVec.extractLsb'_append_eq_left

theorem initWord_toNat :
    (initWord mode duty clk).toNat = 1 + 4 * mode.bit.toNat + 8 * duty.bit.toNat + 16 * clk.toNat := by
  simp only [initWord, toNat_append_eq_add, BitVec.toNat_ofNat]
  omega

end

section
variable (op : BitVec 2) (addr : BitVec 7) (lenm1 : BitVec 8)

/-- WRITE and READ are encoded by their fields side by side. -/
theorem or_eq_transferWord :
    op.setWidth 32 ||| addr.setWidth 32 <<< 8 ||| lenm1.setWidth 32 <<< 16 = transferWord op addr lenm1 := by
  rw [← BitVec.setWidth_eq (transferWord op addr lenm1), transferWord]
  simp only [BitVec.setWidth_append_eq_shiftLeft_setWidth_or, BitVec.shiftLeft_or_distrib, ← BitVec.shiftLeft_add]
  simp only [Nat.reduceLeDiff, Nat.reducePow, Nat.ofNat_pos, BitVec.setWidth_ofNat_of_le_of_lt, Nat.reduceAdd,
    BitVec.zero_shiftLeft, BitVec.zero_or, BitVec.or_zero, Nat.one_le_ofNat, pow_one, Order.lt_two_iff, zero_le]
  rw [BitVec.or_comm, BitVec.or_comm (BitVec.setWidth 32 op), ← BitVec.or_assoc]

theorem encode_write : encode (.write addr lenm1) = .cmd (transferWord 2#2 addr lenm1) :=
  congrArg Code.cmd (or_eq_transferWord 2#2 addr lenm1)

theorem encode_read : encode (.read addr lenm1) = .cmd (transferWord 3#2 addr lenm1) :=
  congrArg Code.cmd (or_eq_transferWord 3#2 addr lenm1)

@[simp] theorem transferWord_op : (transferWord op addr lenm1).extractLsb' 0 2 = op :=
  BitVec.extractLsb'_append_eq_right

@[simp] theorem transferWord_addr : (transferWord op addr lenm1).extractLsb' 8 7 = addr := by
  rw [transferWord, BitVec.extractLsb'_append_eq_of_le (by decide), BitVec.extractLsb'_append_eq_of_le (by decide)]
  exact BitVec.extractLsb'_append_eq_right

@[simp] theorem transferWord_lenm1 : (transferWord op addr lenm1).extractLsb' 16 8 = lenm1 := by
  rw [transferWord]
  iterate 4 rw [BitVec.extractLsb'_append_eq_of_le (by decide)]
  exact BitVec.extractLsb'_append_eq_right

theorem transferWord_toNat :
    (transferWord op addr lenm1).toNat = op.toNat + 2 ^ 8 * addr.toNat + 2 ^ 16 * lenm1.toNat := by
  simp only [transferWord, toNat_append_eq_add, BitVec.toNat_ofNat]
  omega

end

/-- The reserved bits of a word, the others being cleared. -/
theorem and_cmdReserved (v : Word) :
    v &&& cmdReserved = v.extractLsb' 24 8 ++ 0#8 ++ v.extractLsb' 15 1 ++ 0#7 ++ v.extractLsb' 2 6 ++ 0#2 := by
  calc v &&& cmdReserved
    _ = (v.extractLsb' 24 8 ++ v.extractLsb' 16 8 ++ v.extractLsb' 15 1 ++ v.extractLsb' 8 7 ++ v.extractLsb' 2 6 ++
          v.extractLsb' 0 2) &&&
        (BitVec.allOnes 8 ++ 0#8 ++ BitVec.allOnes 1 ++ 0#7 ++ BitVec.allOnes 6 ++ 0#2) := by
      rw [word_transferFields]
      rfl
    _ = _ := by simp only [BitVec.and_append, BitVec.and_allOnes, BitVec.and_zero]

theorem and_cmdReserved_eq_zero_iff (v : Word) : v &&& cmdReserved = 0#32 ↔ ReservedZero v := by
  rw [and_cmdReserved, ReservedZero, getLsbD_eq_false_iff]
  simp only [← BitVec.toNat_inj, toNat_append_eq_add, BitVec.toNat_ofNat]
  omega

/-- A malformed descriptor: OP is 0, or a WRITE or READ has a reserved bit set (rules R83, R84). -/
theorem cmdMalformed_iff (v : Word) :
    cmdMalformed v = true ↔ v.extractLsb' 0 2 = 0#2 ∨ (v.extractLsb' 0 2 ≠ 1#2 ∧ ¬ ReservedZero v) := by
  simp [cmdMalformed, and_cmdReserved_eq_zero_iff]

theorem reservedZero_transferWord (op : BitVec 2) (addr : BitVec 7) (lenm1 : BitVec 8) :
    ReservedZero (transferWord op addr lenm1) := by
  rw [ReservedZero, getLsbD_eq_false_iff, transferWord]
  refine ⟨?_, ?_, ?_⟩
  · rw [BitVec.extractLsb'_append_eq_of_le (by decide)]
    exact BitVec.extractLsb'_append_eq_right
  · iterate 3 rw [BitVec.extractLsb'_append_eq_of_le (by decide)]
    exact BitVec.extractLsb'_append_eq_right
  · iterate 5 rw [BitVec.extractLsb'_append_eq_of_le (by decide)]
    exact BitVec.extractLsb'_eq_self

/-- A word with the reserved bits 0 is the WRITE or READ descriptor of its fields. -/
theorem eq_transferWord {v : Word} (h : ReservedZero v) :
    v = transferWord (v.extractLsb' 0 2) (v.extractLsb' 8 7) (v.extractLsb' 16 8) := by
  obtain ⟨hlo, hbit, hhi⟩ := h
  rw [getLsbD_eq_false_iff] at hbit
  rw [transferWord, ← hlo, ← hbit, ← hhi, word_transferFields]

/-- A word with OP = 1 is the INIT descriptor of its fields. -/
theorem eq_initWord {v : Word} (h : v.extractLsb' 0 2 = 1#2) :
    v = initWord (decodeMode (v.getLsbD 2)) (decodeDuty (v.getLsbD 3)) (v.extractLsb' 4 28) := by
  rw [initWord, bit_decodeMode, bit_decodeDuty, ofBool_getLsbD_eq_extractLsb', ofBool_getLsbD_eq_extractLsb', ← h,
    word_initFields]

/-! ### What a command word decodes to -/

section
variable {v : Word}

theorem decodeCmd_malformed (h : cmdMalformed v = true) : decodeCmd v = .badCommand v := by
  rw [decodeCmd, if_pos h]

theorem decodeCmd_init (hop : v.extractLsb' 0 2 = 1#2) :
    decodeCmd v = .init (decodeMode (v.getLsbD 2)) (decodeDuty (v.getLsbD 3)) (v.extractLsb' 4 28) := by
  rw [decodeCmd, if_neg (by simp [cmdMalformed_iff, hop]), if_pos hop]

theorem decodeCmd_write (hop : v.extractLsb' 0 2 = 2#2) (hres : ReservedZero v) :
    decodeCmd v = .write (v.extractLsb' 8 7) (v.extractLsb' 16 8) := by
  rw [decodeCmd, if_neg (by simp [cmdMalformed_iff, hop, hres]), hop, if_neg (by decide), if_pos rfl]

theorem decodeCmd_read (hop : v.extractLsb' 0 2 = 3#2) (hres : ReservedZero v) :
    decodeCmd v = .read (v.extractLsb' 8 7) (v.extractLsb' 16 8) := by
  rw [decodeCmd, if_neg (by simp [cmdMalformed_iff, hop, hres]), hop, if_neg (by decide), if_neg (by decide)]

/-- A CMD word is malformed, an INIT, or a WRITE or READ with its reserved bits 0. -/
theorem cmdWord_cases (v : Word) :
    cmdMalformed v = true ∨ v.extractLsb' 0 2 = 1#2 ∨
      (ReservedZero v ∧ (v.extractLsb' 0 2 = 2#2 ∨ v.extractLsb' 0 2 = 3#2)) := by
  have hop : ∀ op : BitVec 2, op = 0#2 ∨ op = 1#2 ∨ op = 2#2 ∨ op = 3#2 := by decide
  by_cases hres : ReservedZero v
  · rcases hop (v.extractLsb' 0 2) with h | h | h | h <;> simp [cmdMalformed_iff, hres, h]
  · by_cases h : v.extractLsb' 0 2 = 1#2 <;> simp [cmdMalformed_iff, hres, h]

end

end Sys2Proof

namespace Sys2Proof.Proofs

/-- Settles O1: each encoder's word has the fields that the decoder of its format reads. -/
theorem decodeOfEncodeGivesTheInstruction : Obligations.DecodeOfEncodeGivesTheInstruction := by
  intro i hwf
  cases i with
  | init mode duty clk =>
    rw [encode_init, decode, decodeCmd_init (initWord_op mode duty clk), initWord_mode, initWord_duty,
      initWord_clk, decodeMode_bit, decodeDuty_bit]
  | write addr lenm1 =>
    rw [encode_write, decode, decodeCmd_write (transferWord_op 2#2 addr lenm1) (reservedZero_transferWord _ _ _),
      transferWord_addr, transferWord_lenm1]
  | read addr lenm1 =>
    rw [encode_read, decode, decodeCmd_read (transferWord_op 3#2 addr lenm1) (reservedZero_transferWord _ _ _),
      transferWord_addr, transferWord_lenm1]
  | badCommand w => exact congrArg Except.ok (decodeCmd_malformed hwf)
  | _ => exact decode_encodeUop rfl

/-- Settles O2: a CMD word is the word of its fields in each of the four cases, and a ROM word is when none is
reserved. -/
theorem everyWordHasItsOneMeaning : Obligations.EveryWordHasItsOneMeaning := by
  refine ⟨fun w => ?_, fun w => ⟨exists_decodeUop_iff w, fun i => encode_of_decodeUop⟩⟩
  rcases cmdWord_cases w with h | h | ⟨hres, h | h⟩
  · rw [decodeCmd_malformed h]
    exact ⟨h, rfl⟩
  · rw [decodeCmd_init h, encode_init, ← eq_initWord h]
    exact ⟨rfl, rfl⟩
  · rw [decodeCmd_write h hres, encode_write, ← h, ← eq_transferWord hres]
    exact ⟨rfl, rfl⟩
  · rw [decodeCmd_read h hres, encode_read, ← h, ← eq_transferWord hres]
    exact ⟨rfl, rfl⟩

/-- Settles O3, by decoding the words. -/
theorem specWordsDecode : Obligations.SpecWordsDecode := by
  unfold Obligations.SpecWordsDecode
  decide

/-- Settles O4: the listing word by word, and the decoder on each. -/
theorem romHoldsTheMicroprogram : Obligations.RomHoldsTheMicroprogram := by
  constructor
  · rfl
  · decide

end Sys2Proof.Proofs

/-! The commands at the interface: what each does, the caller's operations as host steps, the host's turn by the head of
its program, and the sequencer (rules R23, R83 to R85, R91, R92). -/

namespace Sys2Proof.Machine

open Sys2Proof.Safety

/-! ### Commands, idle and busy (rules R56, R83, R84) -/

/-- A command is refused while another runs. -/
theorem exec_command_busy {i : Instr} {s : State} (hi : isMicro i = false) (hb : s.m.busy = true) :
    exec i s = .next s.markRefusal := by
  obtain ⟨t, h⟩ := exec_command_answers hi s
  rcases exec_command hi h with ⟨_, rfl⟩ | ⟨hidle, _⟩
  · exact h
  · rw [hb] at hidle
    cases hidle

/-- A command is latched while none runs. -/
theorem exec_of_latches {i : Instr} {s : State} {m : Mte} (hb : s.m.busy = false) (hm : Latches s.m i m) :
    exec i s = .next (s.withM m) := by
  have idle : whenIdle s (s.withM m) = .next (s.withM m) := by rw [whenIdle, hb]; rfl
  cases hm with
  | init | write | read | badCommand => exact idle

/-! ### The caller's operations (rules R91, R92) -/

theorem initCall_eq (clk : Nat) (mode : BusMode) (duty : Duty) :
    initCall clk mode duty =
      [.access (.write .word 0x000 (initWord mode duty (BitVec.ofNat 28 clk))), .wait (some .init)] := by
  rw [initCall, issue, descriptor, encode_init]

/-- A payload is loaded byte by byte, from the first index on. -/
theorem loadPayload_eq_mapIdx (i : Nat) (payload : List Byte) :
    loadPayload i payload =
      payload.mapIdx fun k v => .access (.write .byte (0x100 + (i + k)) (v.setWidth 32)) := by
  induction payload generalizing i with
  | nil => rfl
  | cons v rest ih =>
    rw [loadPayload, ih, List.mapIdx_cons]
    simp only [Nat.add_zero, Nat.add_assoc, Nat.add_comm 1]

theorem writeCall_inRange {addr : Nat} {payload : List Byte}
    (h : addr ≤ 127 ∧ 1 ≤ payload.length ∧ payload.length ≤ 256) :
    writeCall addr payload =
      some (payload.mapIdx (fun k v => .access (.write .byte (0x100 + k) (v.setWidth 32))) ++
        [.access (.write .word 0x000
          (transferWord 2#2 (BitVec.ofNat 7 addr) (BitVec.ofNat 8 (payload.length - 1)))), .wait (some .write)]) := by
  have hdepth : bufDepth = 256 := rfl
  rw [writeCall, if_pos (by omega), issue, descriptor, encode_write, loadPayload_eq_mapIdx]
  simp only [Nat.zero_add]

theorem readCall_inRange {addr n : Nat} (h : addr ≤ 127 ∧ 1 ≤ n ∧ n ≤ 256) :
    readCall addr n =
      some [.access (.write .word 0x000 (transferWord 3#2 (BitVec.ofNat 7 addr) (BitVec.ofNat 8 (n - 1)))),
        .wait (some (.read n))] := by
  have hdepth : bufDepth = 256 := rfl
  rw [readCall, if_pos (by omega), issue, descriptor, encode_read]

theorem writeCall_outOfRange {addr : Nat} {payload : List Byte}
    (h : 127 < addr ∨ payload.length = 0 ∨ 256 < payload.length) : writeCall addr payload = none := by
  have hdepth : bufDepth = 256 := rfl
  rw [writeCall, if_neg (by omega)]

theorem readCall_outOfRange {addr n : Nat} (h : 127 < addr ∨ n = 0 ∨ 256 < n) : readCall addr n = none := by
  have hdepth : bufDepth = 256 := rfl
  rw [readCall, if_neg (by omega)]

/-- The descriptor of a transfer in range, by the weights of its fields. -/
theorem transferWord_ofNat_toNat (op : BitVec 2) {addr n : Nat} (ha : addr ≤ 127) (hn : n ≤ 256) :
    (transferWord op (BitVec.ofNat 7 addr) (BitVec.ofNat 8 (n - 1))).toNat =
      op.toNat + 2 ^ 8 * addr + 2 ^ 16 * (n - 1) := by
  rw [transferWord_toNat, BitVec.toNat_ofNat, BitVec.toNat_ofNat, Nat.mod_eq_of_lt (by omega),
    Nat.mod_eq_of_lt (by omega)]

/-! ### The host's turn by the head of its program (rules R61, R91) -/

section
variable {s : State} {p : List HostStep}

theorem hostTurn_nil (hp : s.program = []) : hostTurn s = .next s := by
  rw [hostTurn, hp]

theorem hostTurn_access {a : HostAccess} (hp : s.program = .access a :: p) :
    hostTurn s = hostAccess a { s with program := p } := by
  rw [hostTurn, hp]

theorem hostTurn_wait {c : Option Call} (hp : s.program = .wait c :: p) : hostTurn s = .next (waitOnce c p s) := by
  rw [hostTurn, hp]

theorem hostTurn_fetch {i : Nat} (hp : s.program = .fetch i :: p) :
    hostTurn s = .next (fetchByte i { s with program := p }) := by
  rw [hostTurn, hp]

theorem hostTurn_wait_busy {c : Option Call} (hp : s.program = .wait c :: p) (hb : s.m.busy = true) :
    hostTurn s = .next { s with hostData := some (.word (statusImage s.m)) } := by
  rw [hostTurn_wait hp]
  rcases waitOnce_cases c p s with ⟨_, e⟩ | ⟨hidle, _⟩
  · rw [e]
  · rw [hb] at hidle
    cases hidle

theorem hostTurn_wait_idle {c : Option Call} (hp : s.program = .wait c :: p) (hb : s.m.busy = false) :
    hostTurn s =
      .next (endWait c (statusImage s.m) { s with hostData := some (.word (statusImage s.m)), program := p }) := by
  rw [hostTurn_wait hp]
  rcases waitOnce_cases c p s with ⟨hbusy, _⟩ | ⟨_, e⟩
  · rw [hb] at hbusy
    cases hbusy
  · rw [e]

end

/-- What INIT returns for each RESULT (rule R91). -/
theorem callReturn_init (r : ResultCode) :
    callReturn .init r.code =
      if r = .ok then some .ok else if r = .configError then some .configError else none := by
  cases r <;> rfl

/-- What WRITE and READ return for each RESULT (rule R91). -/
theorem callReturn_transfer {c : Call} (hc : c ≠ .init) (r : ResultCode) :
    callReturn c r.code =
      if r = .ok then some .ok else if r = .timeout then some .timeout
      else if r = .nackReceived then some .nackReceived
      else if r = .arbitrationLost then some .arbitrationLost else none := by
  cases c with
  | init => exact absurd rfl hc
  | write => cases r <;> rfl
  | read n => cases r <;> rfl

theorem callFetch_read (n : Nat) (r : ResultCode) :
    callFetch (.read n) r.code = if r = .ok then (List.range n).map HostStep.fetch else [] := by
  cases r <;> rfl

/-- The end of a call's `wait`, by RESULT. -/
theorem endWait_call (c : Call) (s : State) (m : Mte) :
    endWait (some c) (statusImage m) s =
      { s with callResult := callReturn c m.result.code, program := callFetch c m.result.code ++ s.program } := by
  rw [endWait, statusResult_statusImage]

/-! ### The caller's fetch of a byte (rules R54, R56, R91) -/

section
variable {i : Nat} (hi : i < bufDepth) {s : State}
include hi

theorem hostRead_buf : hostRead .byte (0x100 + i) s = hostReadBuf i s :=
  Host.Outcome.next.inj (hostAccess_readBuf hi s)

theorem fetchByte_busy (hb : s.m.busy = true) : fetchByte i s = s.markRefusal := by
  simp [fetchByte, hostRead_buf hi, hostReadBuf, hb]

theorem fetchByte_unwritten (hb : s.m.busy = false) (hv : s.buf.read i = none) :
    fetchByte i s = s.recordFault .unwrittenBuf := by
  simp [fetchByte, hostRead_buf hi, hostReadBuf, hb, hv]

theorem fetchByte_written {x : Byte} (hb : s.m.busy = false) (hv : s.buf.read i = some x) :
    fetchByte i s = { s with hostData := some (.byte x), callerBuffer := s.callerBuffer.write i x } := by
  simp [fetchByte, hostRead_written hb hi hv, hb, hi, hv, returnToHost]

end

/-! ### The sequencer (rules R23, R85) -/

/-- The micro-addresses of the polls and ABORT in the listing (rules R23, R86). -/
theorem entersPoll_romWords (a : MicroAddr) :
    entersPoll romWords a = true ↔
      a ∈ [10#6, 11#6, 13#6, 15#6, 17#6, 19#6, 23#6, 24#6, 26#6, 28#6, 31#6, 33#6, 35#6] := by
  revert a
  decide

/-- Any SEQ but END is a move of `m.upc`. -/
theorem applySeq_eq_setUpc {q : Seq} (hq : q ≠ .endCmd) (a : MicroAddr) (s : State) :
    applySeq q a s = setUpc (applySeq q a s).m.upc s := by
  have branch : ∀ (c : Prop) [Decidable c] (u v : MicroAddr),
      (if c then setUpc u s else setUpc v s) = setUpc (if c then setUpc u s else setUpc v s).m.upc s := by
    intro c _ u v
    split <;> rfl
  cases q with
  | next | cfgchk => rfl
  | endCmd => exact absurd rfl hq
  | loopw | loopr | skip1 => exact branch _ _ _

end Sys2Proof.Machine

/-! ### The statements on commands, calls, the host's next access and SEQ -/

namespace Sys2Proof.Proofs

open Sys2Proof.Machine

/-- Settles O10: the descriptor by its raw fields, then what the command latches. -/
theorem cmdWriteFollowsTheDescriptor : Obligations.CmdWriteFollowsTheDescriptor := by
  intro v s
  refine ⟨exec_command_busy (isMicro_decodeCmd v), fun hb => ⟨fun h => ?_, fun hop => ?_, ?_, ?_⟩⟩
  · have hmal : cmdMalformed v = true := by
      rw [cmdMalformed_iff, ReservedZero, not_and_or, not_and_or, Bool.not_eq_false]
      exact h
    rw [decodeCmd_malformed hmal]
    exact exec_of_latches hb (.badCommand v)
  · rw [decodeCmd_init hop]
    exact exec_of_latches hb (.init _ _ _)
  · intro hop hlo hbit hhi
    rw [decodeCmd_write hop ⟨hlo, hbit, hhi⟩]
    exact exec_of_latches hb (.write _ _)
  · intro hop hlo hbit hhi
    rw [decodeCmd_read hop ⟨hlo, hbit, hhi⟩]
    exact exec_of_latches hb (.read _ _)

/-- Settles O42, by the descriptors' weights and the two ranges. -/
theorem callsExpandToHostAccesses : Obligations.CallsExpandToHostAccesses := by
  refine ⟨fun clk mode duty => ?_, fun addr payload => ⟨fun h => ?_, writeCall_outOfRange⟩,
    fun addr n => ⟨fun h => ?_, readCall_outOfRange⟩⟩
  · refine ⟨_, ?_, initCall_eq clk mode duty⟩
    rw [initWord_toNat, BitVec.toNat_ofNat]
    cases mode <;> cases duty <;> rfl
  · exact ⟨_, transferWord_ofNat_toNat 2#2 h.1 h.2.2, writeCall_inRange h⟩
  · exact ⟨_, transferWord_ofNat_toNat 3#2 h.1 h.2.2, readCall_inRange h⟩

/-- Settles O8: the host's turn by the head of its program. -/
theorem stepRunsTheHostsNextAccess : Obligations.StepRunsTheHostsNextAccess := by
  intro s rest hf hq
  let u : State := { s with schedule := rest }
  have hstep : step s = hostTurn u := step_of_schedule hf hq
  rw [hstep]
  refine ⟨?_, ?_, ?_, ?_, ?_, ?_, ?_, ?_⟩
  · exact hostTurn_nil (s := u)
  · exact fun a p => hostTurn_access (s := u)
  · exact fun w p => hostTurn_access (s := u)
  · exact fun c p => hostTurn_wait_busy (s := u)
  · exact fun p => hostTurn_wait_idle (s := u)
  · intro p hp hb
    rw [hostTurn_wait_idle (s := u) hp hb, endWait_call, callReturn_init]
    rfl
  · intro c p hp hc hb
    rw [hostTurn_wait_idle (s := u) hp hb, endWait_call, callReturn_transfer hc]
    cases c with
    | init => exact absurd rfl hc
    | write => rfl
    | read n => rw [callFetch_read]
  · intro i p hp hi
    rw [hostTurn_fetch (s := u) hp]
    refine ⟨fun hb => ?_, fun hb hv => ?_, fun x hb hv => ⟨s.callerBuffer.write i x, ?_, fun j hj => ?_, ?_⟩⟩
    · exact congrArg _ (fetchByte_busy hi hb)
    · exact congrArg _ (fetchByte_unwritten hi hb hv)
    · exact Memory.read_write_same _ i x
    · exact Memory.read_write_ne _ i j x hj
    · exact congrArg _ (fetchByte_written hi hb hv)

/-- Settles O11: an idle MTE latches each command, a busy one refuses it. -/
theorem commandsIdleAndBusy : Obligations.CommandsIdleAndBusy := by
  intro s
  refine ⟨fun hb => ⟨?_, ?_, ?_, ?_⟩, fun hb => ⟨?_, ?_, ?_, ?_⟩⟩
  · exact fun mode duty clk => exec_of_latches hb (.init mode duty clk)
  · exact fun addr lenm1 => exec_of_latches hb (.write addr lenm1)
  · exact fun addr lenm1 => exec_of_latches hb (.read addr lenm1)
  · exact fun w => exec_of_latches hb (.badCommand w)
  · exact fun _ _ _ => exec_command_busy rfl hb
  · exact fun _ _ => exec_command_busy rfl hb
  · exact fun _ _ => exec_command_busy rfl hb
  · exact fun _ => exec_command_busy rfl hb

/-- Settles O29: END clears `m.busy`, any other SEQ moves `m.upc`, and the polls of the listing load `m.cnt`. -/
theorem seqMovesTheMicroPc : Obligations.SeqMovesTheMicroPc := by
  intro q a s hrom
  refine ⟨?_, fun hq => ?_, ?_, ?_, ?_, ?_⟩
  · rintro rfl
    rfl
  · conv_lhs => rw [applySeq_eq_setUpc hq, setUpc, hrom]
    simp only [entersPoll_romWords]
    rfl
  · rintro (rfl | rfl) <;> rfl
  · rintro rfl
    rw [applySeq_loopw, apply_ite State.m, apply_ite Mte.upc]
    rfl
  · rintro rfl
    rw [applySeq_loopr, apply_ite State.m, apply_ite Mte.upc]
    rfl
  · rintro rfl
    have hone : transferLength s.m = 1 ↔ s.m.nm1 = 0#8 := by
      rw [transferLength, ← BitVec.toNat_inj]
      simp
    rw [applySeq_skip1, apply_ite State.m, apply_ite Mte.upc]
    simp only [hone, setUpc_m_upc]

end Sys2Proof.Proofs

/-! The TCU: its verdict as the conjunction of its checks, and what each check says of the clock (rules R100 to
R109). -/

namespace Sys2Proof.Machine

/-! ### The verdict -/

/-- Every check of the TCU passes (rules R102, R104, R107). -/
def TcuChecks (clk : Nat) (mode : BusMode) (duty : Duty) : Prop :=
  (freqMin ≤ tcuFreq clk ∧ tcuFreq clk ≤ freqMax) ∧ tcuTrise clk mode ≤ triseMax ∧
    tcuCcrMin mode ≤ tcuCcr clk mode duty ∧ tcuCcr clk mode duty ≤ ccrMax

/-- The tuple of an ACCEPT (rule R108). -/
def tcuTuple (clk : Nat) (mode : BusMode) (duty : Duty) : TcuOut where
  freq := BitVec.ofNat 8 (tcuFreq clk)
  trise := BitVec.ofNat 8 (tcuTrise clk mode)
  ccr := BitVec.ofNat 12 (tcuCcr clk mode duty)
  fs := decide (mode = .fast)
  dutybit := decide (mode = .fast ∧ duty = .d169)

section

variable {clk : Nat} {mode : BusMode} {duty : Duty}

theorem tcu_accepts (h : TcuChecks clk mode duty) : tcu clk mode duty = some (tcuTuple clk mode duty) := by
  obtain ⟨⟨hmin, hmax⟩, htrise, hccrMin, hccrMax⟩ := h
  rw [tcu, if_neg (not_or.2 ⟨hmin.not_gt, hmax.not_gt⟩), if_neg htrise.not_gt,
    if_neg (not_or.2 ⟨hccrMax.not_gt, hccrMin.not_gt⟩), tcuTuple]

theorem tcu_rejects (h : ¬ TcuChecks clk mode duty) : tcu clk mode duty = none := by
  rw [tcu]
  split
  · rfl
  · next hfreq =>
    split
    · rfl
    · next htrise =>
      refine if_pos (not_not.1 fun hccr => h ?_)
      rw [not_or, not_lt, not_lt] at hfreq hccr
      exact ⟨hfreq, not_lt.1 htrise, hccr.symm⟩

theorem tcu_isSome_iff : (tcu clk mode duty).isSome = true ↔ TcuChecks clk mode duty := by
  by_cases h : TcuChecks clk mode duty
  · simp [tcu_accepts h, h]
  · simp [tcu_rejects h, h]

theorem tcu_eq_some_iff {o : TcuOut} :
    tcu clk mode duty = some o ↔ TcuChecks clk mode duty ∧ tcuTuple clk mode duty = o := by
  by_cases h : TcuChecks clk mode duty
  · simp [tcu_accepts h, h]
  · simp [tcu_rejects h, h]

/-! ### The formulas with their constants -/

theorem tcuTrise_formula :
    tcuTrise clk mode = clk / 1000000 * (if mode = .fast then 300 else 1000) / 1000 + 1 := by
  cases mode <;> rfl

theorem tcuCcr_formula :
    tcuCcr clk mode duty =
      if mode = .std then clk / 200000 else if duty = .d2 then clk / 1200000 else clk / 10000000 := by
  cases mode <;> cases duty <;> rfl

/-! ### Each check by the clock -/

/-- Rule R102. -/
theorem tcuFreq_in_range_iff :
    (freqMin ≤ tcuFreq clk ∧ tcuFreq clk ≤ freqMax) ↔ 2000000 ≤ clk ∧ clk ≤ 50999999 := by
  rw [tcuFreq, freqMin, freqMax]
  omega

/-- Rule R104: 51 is the greatest rise-time field of an accepted frequency. -/
theorem tcuTrise_le (h : tcuFreq clk ≤ freqMax) : tcuTrise clk mode ≤ 51 := by
  rw [freqMax] at h
  cases mode with
  | std => rw [tcuTrise, tcuRiseNs, riseNsStd]; omega
  | fast => rw [tcuTrise, tcuRiseNs, riseNsFast]; omega

/-- Rule R107: 254 is the greatest clock-control field of an accepted frequency. -/
theorem tcuCcr_le (h : clk ≤ 50999999) : tcuCcr clk mode duty ≤ 254 := by
  rw [tcuCcr_formula]
  split_ifs <;> omega

/-- Rule R107: of the accepted frequencies, only the slow ones with the 16:9 duty fall short of `CCR_MIN`. -/
theorem tcuCcrMin_le_iff (h : 2000000 ≤ clk) :
    tcuCcrMin mode ≤ tcuCcr clk mode duty ↔ ¬ (mode = .fast ∧ duty = .d169 ∧ clk < 10000000) := by
  match mode, duty with
  | .std, _ => simp [tcuCcrMin, ccrMinStd, tcuCcr, sclStd]; omega
  | .fast, .d2 => simp [tcuCcrMin, ccrMinFast, tcuCcr, sclFast]; omega
  | .fast, .d169 => simp [tcuCcrMin, ccrMinFast, tcuCcr, sclFast]; omega

theorem tcuChecks_iff :
    TcuChecks clk mode duty ↔
      2000000 ≤ clk ∧ clk ≤ 50999999 ∧ ¬ (mode = .fast ∧ duty = .d169 ∧ clk < 10000000) := by
  constructor
  · rintro ⟨hfreq, _, hccr, _⟩
    obtain ⟨hmin, hmax⟩ := tcuFreq_in_range_iff.1 hfreq
    exact ⟨hmin, hmax, (tcuCcrMin_le_iff hmin).1 hccr⟩
  · rintro ⟨hmin, hmax, hslow⟩
    have hfreq := tcuFreq_in_range_iff.2 ⟨hmin, hmax⟩
    exact ⟨hfreq, (tcuTrise_le hfreq.2).trans (by decide), (tcuCcrMin_le_iff hmin).2 hslow,
      (tcuCcr_le hmax).trans (by decide)⟩

/-! ### No field is narrowed -/

theorem tcuTuple_freq_toNat (h : TcuChecks clk mode duty) : (tcuTuple clk mode duty).freq.toNat = tcuFreq clk := by
  obtain ⟨⟨_, hmax⟩, _⟩ := h
  exact (BitVec.toNat_ofNat _ _).trans (Nat.mod_eq_of_lt (hmax.trans_lt (by decide)))

theorem tcuTuple_trise_toNat (h : TcuChecks clk mode duty) :
    (tcuTuple clk mode duty).trise.toNat = tcuTrise clk mode := by
  obtain ⟨_, hmax, _⟩ := h
  exact (BitVec.toNat_ofNat _ _).trans (Nat.mod_eq_of_lt (hmax.trans_lt (by decide)))

theorem tcuTuple_ccr_toNat (h : TcuChecks clk mode duty) :
    (tcuTuple clk mode duty).ccr.toNat = tcuCcr clk mode duty := by
  obtain ⟨_, _, _, hmax⟩ := h
  exact (BitVec.toNat_ofNat _ _).trans (Nat.mod_eq_of_lt (hmax.trans_lt (by decide)))

end

end Sys2Proof.Machine

namespace Sys2Proof.Proofs

open Sys2Proof.Machine

/-- Settles O12: the TCU accepts when its checks pass, and of an accepted frequency only the lower clock-control check
can fail. -/
theorem tcuAcceptsExactly : Obligations.TcuAcceptsExactly := fun _ _ _ => tcu_isSome_iff.trans tcuChecks_iff

/-- Settles O13: each field's check keeps it below the field's width. -/
theorem tcuGivesTheFormulas : Obligations.TcuGivesTheFormulas := by
  intro clk mode duty o ho
  obtain ⟨h, rfl⟩ := tcu_eq_some_iff.1 ho
  refine ⟨tcuTuple_freq_toNat h, ?_, ?_, decide_eq_true_iff, decide_eq_true_iff⟩
  · rw [tcuTuple_trise_toNat h, tcuTrise_formula]
  · rw [tcuTuple_ccr_toNat h, tcuCcr_formula]

end Sys2Proof.Proofs

/-! The initialisation micro-operations: the two ends of TCU_EVAL, the words of the timing fields, and the CR1 writes with
PE = 1 (rules R116 to R123). -/

namespace Sys2Proof.Machine

open Sys2Proof.Safety

/-! ### TCU_EVAL (rule R116) -/

section
variable {s : State} (q : Seq) (a : MicroAddr)

theorem exec_tcuEval_accepts {o : TcuOut} (h : tcu s.m.clk.toNat s.m.mode s.m.duty = some o) :
    exec (.tcuEval q a) s = .next (applySeq q a (s.withM (latchTcu o s.m))) := by
  rw [exec, execTcuEval, h]

theorem exec_tcuEval_rejects (h : tcu s.m.clk.toNat s.m.mode s.m.duty = none) :
    exec (.tcuEval q a) s = .next (s.withM { s.m with result := .configError, errupc := 0#6, busy := false }) := by
  rw [exec, execTcuEval, h]

end

/-! ### The words of the timing fields (rules R120 to R122) -/

/-- A mask that keeps the low byte keeps a widened byte. -/
theorem zext16_and (v : Byte) {mask : Half} (h : drBits &&& mask = drBits) : zext16 v &&& mask = zext16 v := by
  have hlow : zext16 v &&& drBits = zext16 v := by
    rw [and_drBits]
    exact congrArg zext16 (lowByte_zext16 v)
  rw [← hlow, BitVec.and_assoc, h]

/-- What WR_FREQ leaves in CR2. -/
theorem withFreq_and_cr2Bits (cr2 : Half) (freq : BitVec 8) :
    withFreq cr2 freq &&& cr2Bits = (cr2 &&& 0x1F00#16) ||| freq.setWidth 16 := by
  rw [withFreq, BitVec.and_or_distrib_right, zext16_and freq rfl, BitVec.and_assoc]
  rfl

/-- What WR_CCR leaves in CCR, by its three fields. -/
theorem ccrWord_and_ccrBits (m : Mte) :
    ccrWord m &&& ccrBits =
      (if m.fs then 0x8000#16 else 0x0000#16) ||| (if m.dutybit then 0x4000#16 else 0x0000#16) |||
        m.ccr.setWidth 16 := by
  have hmode : ∀ fs dutybit : Bool,
      ((BitVec.ofBool fs ++ BitVec.ofBool dutybit ++ 0#2) &&& 0xC#4).setWidth 16 <<< 12 =
        (if fs then 0x8000#16 else 0x0000#16) ||| (if dutybit then 0x4000#16 else 0x0000#16) := by decide
  calc ccrWord m &&& ccrBits
    _ = (BitVec.ofBool m.fs ++ BitVec.ofBool m.dutybit ++ 0#2 ++ m.ccr) &&& (0xC#4 ++ BitVec.allOnes 12) := rfl
    _ = (((BitVec.ofBool m.fs ++ BitVec.ofBool m.dutybit ++ 0#2) &&& 0xC#4) ++ m.ccr).setWidth 16 := by
      rw [BitVec.and_append, BitVec.and_allOnes, BitVec.setWidth_eq]
    _ = _ := by rw [BitVec.setWidth_append_eq_shiftLeft_setWidth_or, hmode]

/-! ### The CR1 value of a micro-operation (rules R117 to R119, R123, R136, R137, R146, R150, R204) -/

section
variable {s t : State} {i : Instr} {v : Half} {after : State → State}

/-- Only PE_OFF and PE_ON change PE. -/
theorem WritesCr1.flag_pe (h : WritesCr1 s i v after) (hoff : ∀ q a, i ≠ .peOff q a) (hon : ∀ q a, i ≠ .peOn q a) :
    flag v cr1PE = flag s.b.cr1 cr1PE := by
  cases h with
  | peOff q a => exact absurd rfl (hoff q a)
  | peOn q a => exact absurd rfl (hon q a)
  | _ => simp (disch := decide) only [flag_setFlag_ne]

end

end Sys2Proof.Machine

/-! ### The statements on TCU_EVAL, CR1 with PE = 1 and the timing fields -/

namespace Sys2Proof.Proofs

open Sys2Proof.Machine

/-- Settles O14, from the two ends of TCU_EVAL. -/
theorem tcuEvalLatchesOrRejects : Obligations.TcuEvalLatchesOrRejects := by
  refine fun seq tgt s => ⟨fun o ho => ⟨exec_tcuEval_accepts seq tgt ho, fun hupc => ?_⟩, exec_tcuEval_rejects seq tgt⟩
  refine ⟨_, exec_tcuEval_accepts .cfgchk tgt ho, ?_⟩
  change s.m.upc + 1 = 1#6
  rw [hupc]
  rfl

/-- Settles O15: each of these micro-operations writes a value with PE = 1, which CR1 takes but for its reserved bits. -/
theorem cr1WritesWhileEnabled : Obligations.Cr1WritesWhileEnabled := by
  intro seq tgt s h15
  refine ⟨(WritesCr1.peOn seq tgt).exec_enabled h15 (flag_setFlag_same _ _ _), fun h0 => ?_⟩
  have enabled {i : Instr} {v : Half} {after : State → State} (h : WritesCr1 s i v after)
      (hoff : ∀ q a, i ≠ .peOff q a) (hon : ∀ q a, i ≠ .peOn q a) :=
    h.exec_enabled h15 ((h.flag_pe hoff hon).trans h0)
  refine ⟨?_, ?_, enabled (.ackOn seq tgt) nofun nofun, enabled (.genStart seq tgt) nofun nofun,
    enabled (.genStop seq tgt) nofun nofun, enabled (.nackStop seq tgt) nofun nofun⟩
  · rw [enabled (.selI2c seq tgt) nofun nofun, setFlag_false, BitVec.and_assoc]
    rfl
  · rw [enabled (.setOpts seq tgt) nofun nofun, setFlag_eq_mask, ← fltrWord_and_fltrBits]
    rfl

/-- Settles O18, by what the implemented bits keep of each word. -/
theorem timingFieldWrites : Obligations.TimingFieldWrites := by
  intro seq tgt s
  rw [← withFreq_and_cr2Bits, ← ccrWord_and_ccrBits, ← zext16, ← zext16_and s.m.trise (mask := triseBits) rfl]
  exact ⟨rfl, rfl, rfl⟩

end Sys2Proof.Proofs

/-! The configuration registers through a step: the controller's side of what each agent can do, PE while INIT runs its
middle part, and CR1 while a WRITE or READ runs (rules R125, R126). -/

namespace Sys2Proof.Machine

open Sys2Proof.Safety

/-! ### The registers that a step of the bus or the environment leaves alone (rule R180) -/

/-- The timing fields and the filter options are the same. -/
def SameTiming (b c : Bc) : Prop :=
  c.cr2 = b.cr2 ∧ c.ccr = b.ccr ∧ c.trise = b.trise ∧ c.fltr = b.fltr

theorem sameTiming_refl (b : Bc) : SameTiming b b := ⟨rfl, rfl, rfl, rfl⟩

/-- What the bus may do to the configuration registers: only clear START or STOP in CR1. -/
structure BusKeepsConfig (b c : Bc) : Prop where
  timing : SameTiming b c
  cr1 : c.cr1 = b.cr1 ∨ c.cr1 = setFlag b.cr1 cr1START false ∨ c.cr1 = setFlag b.cr1 cr1STOP false

theorem busStep_keepsConfig {τ : Turn} {s u : State} (h : busStep τ s = some u) : BusKeepsConfig s.b u.b := by
  have cr1Kept {c : Bc} (ht : SameTiming s.b c) (e : c.cr1 = s.b.cr1) : BusKeepsConfig s.b c := ⟨ht, .inl e⟩
  have stopTaken {c : Bc} (ht : SameTiming s.b c) (e : c.cr1 = setFlag s.b.cr1 cr1STOP false) :
      BusKeepsConfig s.b c := ⟨ht, .inr (.inr e)⟩
  have same := sameTiming_refl s.b
  cases τ with
  | host | mte => cases h
  | bcStart =>
    cases (Option.ite_none_right_eq_some.1 h).2
    exact ⟨same, .inr (.inl rfl)⟩
  | bcAddr ans =>
    have h := (Option.ite_none_right_eq_some.1 h).2
    cases ans <;> cases h <;> exact cr1Kept same rfl
  | bcTx draw =>
    have h := (Option.ite_none_right_eq_some.1 h).2
    cases draw with
    | arb => cases (Option.ite_none_right_eq_some.1 h).2; exact cr1Kept same rfl
    | ack | nack => cases h; exact cr1Kept same rfl
  | bcRx d =>
    have h := (Option.ite_none_right_eq_some.1 h).2
    split at h
    · cases h; exact stopTaken same rfl
    · split at h <;> cases h <;> exact cr1Kept same rfl
  | bcStop | bcStopIdle =>
    cases (Option.ite_none_right_eq_some.1 h).2
    exact stopTaken same rfl
  | bcAddrArb | envClaim | envRelease =>
    cases (Option.ite_none_right_eq_some.1 h).2
    exact cr1Kept same rfl

theorem BusKeepsConfig.flag_pe {b c : Bc} (h : BusKeepsConfig b c) : flag c.cr1 cr1PE = flag b.cr1 cr1PE := by
  rcases h.cr1 with e | e | e <;> simp (disch := decide) only [e, flag_setFlag_ne]

/-! ### CR1 after a micro-operation -/

/-- `c` is what CR1 takes of a written value `v`: its implemented bits, of which a write with PE = 0 leaves START, STOP
and ACK out (rule R40). -/
def Cr1Takes (v c : Half) : Prop := c = v &&& cr1Bits ∨ c = v &&& 0xB8FB#16

theorem Cr1Takes.flag_pe {v c : Half} (h : Cr1Takes v c) : flag c cr1PE = flag v cr1PE := by
  rcases h with rfl | rfl <;> rw [flag_and] <;> exact Bool.and_true _

section
variable {s t : State} {i : Instr} {v : Half} {after : State → State}

/-- The rest of a step leaves CR1 as its write did. -/
theorem WritesCr1.after_cr1 (hi : WritesCr1 s i v after) (u : State) : (after u).b.cr1 = u.b.cr1 := by
  cases hi <;> simp [disarm, writeSr1]

/-- A CR1 write is done, with its value in CR1, or is refused or faults and leaves the MTE and the controller alone. -/
theorem WritesCr1.written_or_kept (hi : WritesCr1 s i v after) (h : exec i s = .next t) :
    (Cr1Takes v t.b.cr1 ∧ ∃ b, t = after (s.withB b)) ∨ (t.m = s.m ∧ t.b = s.b) := by
  rw [hi.exec_eq] at h
  rcases writeCr1_cases v s with ⟨_, e⟩ | ⟨_, _, e⟩ | ⟨_, _, _, e⟩ | ⟨_, _, _, e⟩ <;> rw [e] at h <;> cases h
  · exact .inr ⟨rfl, rfl⟩
  · exact .inl ⟨.inl (hi.after_cr1 _), _, rfl⟩
  · exact .inr ⟨rfl, rfl⟩
  · exact .inl ⟨.inr ((hi.after_cr1 _).trans (cr1_disabled v)), _, rfl⟩

theorem WritesCr1.cr1_next (hi : WritesCr1 s i v after) (h : exec i s = .next t) :
    Cr1Takes v t.b.cr1 ∨ t.b.cr1 = s.b.cr1 :=
  (hi.written_or_kept h).imp (fun h => h.1) fun h => congrArg Bc.cr1 h.2

/-- No other micro-operation touches CR1. -/
theorem MicroNext.cr1_kept (h : MicroNext s i t) (hno : ∀ v after, ¬ WritesCr1 s i v after) : t.b.cr1 = s.b.cr1 := by
  cases h with
  | refused hi | faulted hi | cr1Written hi => exact absurd hi (hno _ _)
  | pollCompletes hi hb =>
    obtain ⟨_, _, _, rfl⟩ := pollFlags_shape hb.1
    cases hi <;> simp [noAction, arm, countByte]
  | pollRaises _ _ hb | pollWaits _ hb =>
    obtain ⟨_, _, _, rfl⟩ := pollFlags_shape hb.1
    rfl
  | txAddr _ _ _ _ hb | txData _ _ _ _ hb =>
    obtain ⟨_, _, _, _, _, rfl⟩ := drWrite_shape hb
    simp
  | clrAddr _ _ _ hb =>
    rcases hb with rfl | ha
    · simp
    · obtain ⟨_, _, _, rfl⟩ := addrCleared_shape ha
      simp
  | _ => simp [countByte]

/-- CR1 after a micro-operation: as it was, or what it takes of the value that was written. -/
theorem exec_cr1 (hi : isMicro i = true) (h : exec i s = .next t) :
    t.b.cr1 = s.b.cr1 ∨ ∃ v after, WritesCr1 s i v after ∧ Cr1Takes v t.b.cr1 := by
  by_cases hw : ∃ v after, WritesCr1 s i v after
  · obtain ⟨v, after, hw⟩ := hw
    exact (hw.cr1_next h).symm.imp_right fun h => ⟨v, after, hw, h⟩
  · exact .inl ((exec_microNext hi h).cr1_kept fun v after h => hw ⟨v, after, h⟩)

/-- PE is changed by PE_OFF and PE_ON only. -/
theorem exec_flag_pe (hi : isMicro i = true) (h : exec i s = .next t) (hoff : ∀ q a, i ≠ .peOff q a)
    (hon : ∀ q a, i ≠ .peOn q a) : flag t.b.cr1 cr1PE = flag s.b.cr1 cr1PE := by
  rcases exec_cr1 hi h with e | ⟨v, after, hw, e⟩
  · rw [e]
  · rw [e.flag_pe, hw.flag_pe hoff hon]

end

/-! ### The listing's part in it (rule R86) -/

theorem isMicro_of_romAt {u : Nat} {i : Instr} (h : RomAt u i) : isMicro i = true := by
  cases i with
  | init | write | read | badCommand => exact h.elim
  | _ => rfl

/-- The timing fields and filter options are written at micro-addresses 3 to 6 only. -/
theorem MicroNext.sameTiming {s t : State} {i : Instr} (h : MicroNext s i t) {u : Nat} (hat : RomAt u i)
    (hu : ¬ (3 ≤ u ∧ u ≤ 6)) : SameTiming s.b t.b := by
  obtain ⟨-, -, -, hcr2, hccr, htrise, hfltr, -⟩ := h.registers_frame
  refine ⟨hcr2 ?_, hccr ?_, htrise ?_, hfltr ?_⟩
  all_goals
    rintro q a rfl
    obtain ⟨-, hu'⟩ := hat
    omega

/-- A WRITE or READ writes values to CR1 that change only START, STOP and ACK. -/
theorem WritesCr1.keeps_others {s : State} {i : Instr} {v : Half} {after : State → State}
    (hi : WritesCr1 s i v after) {u : Nat} (hat : RomAt u i) (hu : 9 ≤ u) :
    v &&& 0xF8FF#16 = s.b.cr1 &&& 0xF8FF#16 := by
  cases hi with
  | peOff | selI2c | setOpts | peOn =>
    obtain ⟨-, hu'⟩ := hat
    omega
  | _ => simp (disch := decide) only [setFlag_and_of_flag_false]

/-! ### What a turn does to the MTE and the controller -/

/-- `ControllerNext s t`: a turn may take the MTE and the controller of `s` to those of `t`. -/
inductive ControllerNext (s : State) : State → Prop where
  | keeps {t} (hm : t.m = s.m) (hb : t.b = s.b) : ControllerNext s t
  | accepts {t i} (hidle : s.m.busy = false) (hm : Latches s.m i t.m) (hb : t.b = s.b) : ControllerNext s t
  | micro {t i} (hbusy : s.m.busy = true) (hat : RomAt s.m.upc.toNat i) (h : exec i s = .next t) : ControllerNext s t
  | bus {t} (hm : t.m = s.m) (hb : BusKeepsConfig s.b t.b) : ControllerNext s t

section
variable {s t : State}

theorem HostNext.controllerNext (h : HostNext s t) : ControllerNext s t := by
  cases h with
  | latched p hidle hm => exact .accepts hidle hm rfl
  | _ => exact .keeps rfl rfl

theorem mteTurn_controllerNext (hrom : s.rom = romWords) (h : mteTurn s = .next t) : ControllerNext s t := by
  rcases mteTurn_next h with ⟨_, rfl⟩ | ⟨hbusy, w, hw, ⟨_, _, rfl⟩ | ⟨i, hi, h⟩⟩
  · exact .keeps rfl rfl
  · exact .keeps rfl rfl
  · exact .micro hbusy (romAt_of_fetch hrom hw hi) h

theorem runTurn_controllerNext {τ : Turn} (hrom : s.rom = romWords) (h : runTurn τ s = .next t) :
    ControllerNext s t := by
  by_cases hhost : τ = .host
  · subst hhost
    exact (hostTurn_hostNext h).controllerNext
  · by_cases hmte : τ = .mte
    · subst hmte
      exact mteTurn_controllerNext hrom h
    · rw [runTurn_bus τ s hhost hmte] at h
      cases h
      cases hb : busStep τ s with
      | none => exact .keeps rfl rfl
      | some u =>
        obtain ⟨b, evs, rfl⟩ := busStep_shape hb
        exact .bus rfl (busStep_keepsConfig hb)

/-- Everything a step from a state with the MTE invariant can do to the MTE and the controller. -/
theorem step_controllerNext (hinv : MteInv s) (h : step s = .next t) :
    ∃ q n, ControllerNext { s with schedule := q, turnsDrawn := n } t := by
  obtain ⟨q, n, e⟩ := nextTurn_shape s
  obtain ⟨_, _, hrun⟩ := step_next h
  rw [e] at hrun
  exact ⟨q, n, runTurn_controllerNext (mteInv_rom (s := s) hinv) hrun⟩

/-! ### INIT runs its middle part with PE = 0 (rule R125) -/

/-- A running command is INIT where it stands in INIT's part of the ROM. -/
theorem mteInv_op_init_iff (hinv : MteInv s) (hb : s.m.busy = true) : s.m.op = .init ↔ s.m.upc.toNat ≤ 8 := by
  rcases mteInv_place hinv hb with ⟨hu, hop⟩ | ⟨hu, _, hop, _⟩ | ⟨hu, _, hop, _⟩ | ⟨hu, _, ⟨hop, _⟩ | ⟨hop, _⟩⟩
  · exact iff_of_true hop hu
  all_goals exact iff_of_false (by rw [hop]; decide) (by omega)

/-- A micro-operation keeps PE = 0 in INIT's middle part: PE_OFF leads into it, PE_ON out of it. -/
theorem initDisabled_of_exec {i : Instr} (hdis : InitDisabled s) (hinv : MteInv s) (hinv' : MteInv t)
    (hbusy : s.m.busy = true) (hat : RomAt s.m.upc.toNat i) (h : exec i s = .next t) : InitDisabled t := by
  intro hbusy' hlo hup
  have hmicro := exec_microNext (isMicro_of_romAt hat) h
  obtain ⟨hop, -⟩ := hmicro.operands_frame
  have hu : s.m.upc.toNat ≤ 8 := by
    rw [← mteInv_op_init_iff hinv hbusy, ← hop, mteInv_op_init_iff hinv' hbusy']
    omega
  cases i with
  | tcuEval q a =>
    obtain ⟨rfl, hu⟩ := hat
    cases hmicro with
    | tcuRejects => cases hbusy'
    | tcuAccepts =>
      have hnext : (s.m.upc + 1).toNat = s.m.upc.toNat + 1 := upc_succ (by omega)
      change 2 ≤ (s.m.upc + 1).toNat at hlo
      omega
    | refused hi | faulted hi | cr1Written hi | pollRaises _ hi | pollCompletes hi | pollWaits hi => cases hi
  | peOff q a =>
    obtain ⟨rfl, hu⟩ := hat
    rcases (WritesCr1.peOff .next a).written_or_kept h with ⟨hcr1, -⟩ | ⟨hm, -⟩
    · exact hcr1.flag_pe.trans (flag_setFlag_same _ _ _)
    · rw [hm] at hlo
      omega
  | peOn q a =>
    obtain ⟨rfl, hu⟩ := hat
    rcases (WritesCr1.peOn .next a).written_or_kept h with ⟨-, b, rfl⟩ | ⟨-, hb⟩
    · have hnext : (s.m.upc + 1).toNat = s.m.upc.toNat + 1 := upc_succ (by omega)
      change (s.m.upc + 1).toNat ≤ 7 at hup
      omega
    · rw [hb]
      exact hdis hbusy (by omega) (by omega)
  | selI2c q a | setOpts q a | wrFreq q a | wrCcr q a | wrTrise q a =>
    obtain ⟨-, hu⟩ := hat
    rw [exec_flag_pe rfl h nofun nofun]
    exact hdis hbusy (by omega) (by omega)
  | done q a =>
    obtain ⟨rfl, -⟩ := hat
    cases h
    cases hbusy'
  | init | write | read | badCommand => exact hat.elim
  | _ =>
    dsimp only [RomAt] at hat
    omega

/-- A command that starts has its ROM entry in `m.upc` (rule R83). -/
theorem Latches.entry {m m' : Mte} {i : Instr} (hm : Latches m i m') (hidle : m.busy = false) (hbusy : m'.busy = true) :
    m'.upc = 0#6 ∨ m'.upc = 9#6 ∨ m'.upc = 21#6 := by
  cases hm with
  | init => exact .inl rfl
  | write => exact .inr (.inl rfl)
  | read => exact .inr (.inr rfl)
  | badCommand =>
    change m.busy = true at hbusy
    rw [hidle] at hbusy
    cases hbusy

theorem initDisabled_of_controllerNext (hdis : InitDisabled s) (hinv : MteInv s) (hinv' : MteInv t)
    (h : ControllerNext s t) : InitDisabled t := by
  cases h with
  | keeps hm hb =>
    unfold InitDisabled
    rw [hm, hb]
    exact hdis
  | accepts hidle hm _ =>
    intro hbusy hlo hup
    rcases hm.entry hidle hbusy with e | e | e <;> rw [e] at hlo hup
    · exact absurd hlo (by decide)
    · exact absurd hup (by decide)
    · exact absurd hup (by decide)
  | micro hbusy hat h => exact initDisabled_of_exec hdis hinv hinv' hbusy hat h
  | bus hm hb =>
    unfold InitDisabled
    rw [hm, hb.flag_pe]
    exact hdis

/-- But for INIT's micro-addresses 3 to 6 a step leaves the timing fields and filter options alone. -/
theorem sameTiming_of_controllerNext (hu : s.m.busy = true → ¬ (3 ≤ s.m.upc.toNat ∧ s.m.upc.toNat ≤ 6))
    (h : ControllerNext s t) : SameTiming s.b t.b := by
  cases h with
  | keeps _ hb | accepts _ _ hb =>
    rw [hb]
    exact sameTiming_refl _
  | micro hbusy hat h => exact (exec_microNext (isMicro_of_romAt hat) h).sameTiming hat (hu hbusy)
  | bus _ hb => exact hb.timing

/-! ### A WRITE or READ keeps the configuration (rule R126) -/

/-- CR1's reserved bits are quiet, so that it keeps all but START, STOP and ACK through the bits that a write with
PE = 0 leaves. -/
theorem cr1_of_quiet {w : Half} (h : w &&& 0xF87C#16 = 0#16) : w &&& 0xB8FB#16 = w &&& 0xF8FF#16 := by
  calc w &&& 0xB8FB#16
    _ = w &&& 0xB8FB#16 ||| (w &&& 0xF87C#16) &&& 0x4004#16 := by rw [h, BitVec.zero_and, BitVec.or_zero]
    _ = w &&& 0xF8FF#16 := by rw [BitVec.and_assoc, ← BitVec.and_or_distrib_left]; rfl

/-- Under the mask of rule R126, what CR1 takes of a value is what a write with PE = 0 leaves of it. -/
theorem Cr1Takes.and_mask {v c : Half} (h : Cr1Takes v c) : c &&& 0xF8FF#16 = v &&& 0xF8FF#16 &&& 0xB8FB#16 := by
  rcases h with rfl | rfl <;> rw [BitVec.and_assoc, BitVec.and_assoc] <;> rfl

theorem cr1_of_controllerNext (hquiet : s.b.cr1 &&& 0xF87C#16 = 0#16) (hu : s.m.busy = true → 9 ≤ s.m.upc.toNat)
    (h : ControllerNext s t) : t.b.cr1 &&& 0xF8FF#16 = s.b.cr1 &&& 0xF8FF#16 := by
  cases h with
  | keeps _ hb | accepts _ _ hb => rw [hb]
  | micro hbusy hat h =>
    rcases exec_cr1 (isMicro_of_romAt hat) h with e | ⟨v, after, hw, e⟩
    · rw [e]
    · rw [e.and_mask, hw.keeps_others hat (hu hbusy), BitVec.and_assoc, ← cr1_of_quiet hquiet]
      rfl
  | bus _ hb =>
    rcases hb.cr1 with e | e | e <;> simp (disch := decide) only [e, setFlag_and_of_flag_false]

end

end Sys2Proof.Machine

/-! ### The statements on the configuration registers through a step -/

namespace Sys2Proof.Proofs

open Sys2Proof.Machine Sys2Proof.Safety

/-- Settles O51: PE_OFF leads into INIT's middle part, and only there do micro-operations write these registers. -/
theorem timingWritesOnlyWhileDisabled : Obligations.TimingWritesOnlyWhileDisabled := by
  intro s t hinv hdis h
  obtain ⟨_, hstep⟩ := mteInvariantHoldsAlways
  obtain ⟨q, n, hs⟩ := step_controllerNext hinv h
  let u : State := { s with schedule := q, turnsDrawn := n }
  have writes (hbusy : s.m.busy = true) (hlo : 3 ≤ s.m.upc.toNat) (hup : s.m.upc.toNat ≤ 6) :
      flag s.b.cr1 cr1PE = false := hdis hbusy (by omega) (by omega)
  refine ⟨initDisabled_of_controllerNext (s := u) hdis hinv (hstep s t hinv h) hs, fun hchange => ?_, fun _ => writes⟩
  by_contra hpe
  obtain ⟨hcr2, hccr, htrise, hfltr⟩ : SameTiming s.b t.b :=
    sameTiming_of_controllerNext (s := u) (fun hbusy ⟨hlo, hup⟩ => hpe (writes hbusy hlo hup)) hs
  simp [hcr2, hccr, htrise, hfltr] at hchange

/-- Settles O52: a WRITE or READ stands past INIT's part of the ROM, where only START, STOP and ACK are written. -/
theorem transfersKeepTheConfiguration : Obligations.TransfersKeepTheConfiguration := by
  intro s t hinv ⟨hquiet, _⟩ hbusy hop h
  have hu : 9 ≤ s.m.upc.toNat := by
    by_contra hlow
    have hinit := (mteInv_op_init_iff hinv hbusy).2 (by omega)
    simp [hinit] at hop
  obtain ⟨q, n, hs⟩ := step_controllerNext hinv h
  let u : State := { s with schedule := q, turnsDrawn := n }
  have hout : ¬ (3 ≤ s.m.upc.toNat ∧ s.m.upc.toNat ≤ 6) := by omega
  obtain ⟨hcr2, hccr, htrise, hfltr⟩ : SameTiming s.b t.b := sameTiming_of_controllerNext (s := u) (fun _ => hout) hs
  exact ⟨hcr2, hccr, htrise, hfltr, cr1_of_controllerNext (s := u) hquiet (fun _ => hu) hs⟩

end Sys2Proof.Proofs

/-! The transfer micro-operations one by one: DR writes, the SR2 read of CLR_ADDR, RX_DATA, DONE, the polls by the flags
they wait for, the budget rule and the entry to ABORT (rules R132 to R149). -/

namespace Sys2Proof.Machine

open Sys2Proof.Safety

/-! ### Bytes through DR (rules R39, R140, R144, R149) -/

theorem extractLsb'_zext16 (v : Byte) : (zext16 v).extractLsb' 0 8 = v := by
  rw [← BitVec.setWidth_eq_extractLsb' (by decide)]
  exact lowByte_zext16 v

theorem lowByte_eq_extractLsb' (w : Half) : lowByte w = w.extractLsb' 0 8 :=
  BitVec.setWidth_eq_extractLsb' (by decide)

theorem dir_bit_eq (d : Dir) : d.bit = if d = .read then 1#1 else 0#1 := by
  cases d <;> rfl

section
variable (q : Seq) (a : MicroAddr) (s : State)

/-- A byte written to DR has the effects of rule R39. -/
theorem writeDr_byte (v : Byte) (s : State) : ∃ c, DrWrite v s.b c ∧ writeDr (zext16 v) s = s.withB c := by
  have h := writeDr_effect (zext16 v) s
  rwa [extractLsb'_zext16] at h

theorem exec_txAddr : exec (.txAddr q a) s = .next (applySeq q a (writeDr (zext16 (addressByte s.m)) s)) := rfl

theorem exec_txData_written {v : Byte} (hv : s.buf.read s.m.idx.toNat = some v) :
    exec (.txData q a) s = .next (applySeq q a (writeDr (zext16 v) s)) := by
  simp only [exec, execTxData, sendByte, hv, bcWrite_dr, finishMicro_ok]

theorem exec_txData_unwritten (hv : s.buf.read s.m.idx.toNat = none) :
    exec (.txData q a) s = .next (s.recordFault .unwrittenBuf) := by
  simp only [exec, execTxData, sendByte, hv, finishMicro_fault]

theorem exec_clrAddr : exec (.clrAddr q a) s = .next (applySeq q a (readSr2 s).2) := rfl

theorem exec_rxData :
    exec (.rxData q a) s = finishMicro q a s
      (storeByte (s.b.dr.extractLsb' 0 8) (s.withB { s.b with sr1 := s.b.sr1 &&& 0xFFBB#16 })) := by
  have hbyte : lowByte (readDr s).1 = s.b.dr.extractLsb' 0 8 := by
    rw [readDr, lowByte_zext16, lowByte_eq_extractLsb']
  simp only [exec, execRxData, bcRead_dr, Micro.bind_ok, hbyte]
  rw [readDr_eq]

/-- RX_DATA stores DR's byte and counts it. -/
theorem exec_rxData_inside (hidx : s.m.idx.toNat < bufDepth) :
    exec (.rxData q a) s = .next (applySeq q a (countByte
      ((s.withB { s.b with sr1 := s.b.sr1 &&& 0xFFBB#16 }).withBuf
        (s.buf.write s.m.idx.toNat (s.b.dr.extractLsb' 0 8))))) :=
  (exec_rxData q a s).trans (congrArg (finishMicro q a s) (if_pos hidx))

theorem exec_rxData_outside (hidx : ¬ s.m.idx.toNat < bufDepth) :
    exec (.rxData q a) s = .fault .bufIndexOutside :=
  (exec_rxData q a s).trans (congrArg (finishMicro q a s) (if_neg hidx))

end

/-! ### The polls (rules R132 to R134) -/

theorem armedCheck_arloMasterBusy (v : PollSample) :
    ArmedCheck.arloMasterBusy.fails v = true ↔
      flag v.sr1 sr1ARLO = true ∨ flag v.sr2 sr2MSL = false ∨ flag v.sr2 sr2BUSY = false := by
  simp [ArmedCheck.fails, or_assoc]

section
variable (q : Seq) (a : MicroAddr) (s : State)

/-- One iteration by what it reads, in the order of rule R132. -/
theorem pollOnce_of_reads {row : PollRow} {v : PollSample} {u : State} (act : State → State)
    (h : pollReads row s = (v, u)) :
    pollOnce row act q a s =
      if s.m.armed = true ∧ row.armedCheck.fails v = true then raise .arbitrationLost u
      else if row.nackCheck = true ∧ flag v.sr1 sr1AF = true then raise .nackReceived u
      else if row.cond.holds v = true then applySeq q a (act u)
      else pollUnresolved u := by
  simp only [pollOnce, h, Bool.and_eq_true]

/-- A poll of a row without checks. -/
theorem pollOnce_unchecked {row : PollRow} {v : PollSample} {u : State} (act : State → State)
    (h : pollReads row s = (v, u)) (harmed : row.armedCheck = .none) (hnack : row.nackCheck = false) :
    pollOnce row act q a s = if row.cond.holds v = true then applySeq q a (act u) else pollUnresolved u := by
  rw [pollOnce_of_reads q a s act h, if_neg (by simp [harmed, ArmedCheck.fails]), if_neg (by simp [hnack])]

theorem pollReads_sr1 {row : PollRow} (hcr1 : row.readsCr1 = false) (hsr1 : row.readsSr1 = true)
    (hsr2 : row.readsSr2.now s.m.armed = false) :
    pollReads row s = (⟨0#16, s.b.sr1, 0#16⟩, (readSr1 s).2) := by
  simp [pollReads, hcr1, hsr1, hsr2, readSr1]

theorem pollReads_sr1_sr2 {row : PollRow} (hcr1 : row.readsCr1 = false) (hsr1 : row.readsSr1 = true)
    (hsr2 : row.readsSr2.now s.m.armed = true) :
    pollReads row s = (⟨0#16, s.b.sr1, s.b.sr2⟩, (readSr2 (readSr1 s).2).2) := by
  simp [pollReads, hcr1, hsr1, hsr2, readSr1, readSr2]

end

/-- The ends of one iteration of a poll: it raises an error, waits, or completes because its condition holds. -/
theorem pollOnce_ends (row : PollRow) (act : State → State) (q : Seq) (a : MicroAddr) (s : State) :
    ∃ b, (pollReads row s).2 = s.withB b ∧ PolledBc row s.b b ∧
      ((∃ e c, e ≠ .none ∧ pollOnce row act q a s = raise e ((s.withB b).withM { s.m with cnt := c })) ∨
        (∃ c, pollOnce row act q a s = (s.withB b).withM { s.m with cnt := c }) ∨
        (row.cond.holds (pollReads row s).1 = true ∧ pollOnce row act q a s = applySeq q a (act (s.withB b)))) := by
  obtain ⟨b, e, hb⟩ := pollReads_polledBc row s
  refine ⟨b, e, hb, ?_⟩
  rcases pollOnce_cases row act q a s with ⟨_, _, h⟩ | ⟨_, _, h⟩ | ⟨hc, h⟩ | ⟨_, h⟩ <;> rw [h, e]
  · exact .inl ⟨_, s.m.cnt, by decide, rfl⟩
  · exact .inl ⟨_, s.m.cnt, by decide, rfl⟩
  · exact .inr (.inr ⟨hc, rfl⟩)
  · rcases pollUnresolved_cases (s.withB b) with ⟨_, h⟩ | ⟨_, _, h⟩ | ⟨_, _, h⟩ <;> rw [h]
    · exact .inr (.inl ⟨s.m.cnt, rfl⟩)
    · exact .inl ⟨_, s.m.cnt - 1, by decide, rfl⟩
    · exact .inr (.inl ⟨s.m.cnt - 1, rfl⟩)

/-- The success action of a poll touches `m.idx` and `m.armed` only. -/
theorem PollOp.act_shape {i : Instr} {row : PollRow} {act : State → State} {q : Seq} {a : MicroAddr}
    (hi : PollOp i row act q a) (s : State) : ∃ n w, act s = s.withM { s.m with idx := n, armed := w } := by
  cases hi with
  | pollMb => exact ⟨s.m.idx, true, rfl⟩
  | pollBtf => exact ⟨s.m.idx + 1, s.m.armed, rfl⟩
  | _ => exact ⟨s.m.idx, s.m.armed, rfl⟩

end Sys2Proof.Machine

namespace Sys2Proof.Proofs

open Sys2Proof.Machine Sys2Proof.Safety

/-- Settles O19, from the DR write of rule R39. -/
theorem txAddrAndTxDataWriteDr : Obligations.TxAddrAndTxDataWriteDr := by
  intro seq tgt s
  refine ⟨?_, fun v hv => ?_, exec_txData_unwritten seq tgt s⟩
  · obtain ⟨c, hc, e⟩ := writeDr_byte (addressByte s.m) s
    rw [← dir_bit_eq, exec_txAddr, e]
    exact ⟨c, hc, rfl⟩
  · obtain ⟨c, hc, e⟩ := writeDr_byte v s
    rw [exec_txData_written seq tgt s hv, e]
    exact ⟨c, hc, rfl⟩

/-- Settles O20, from the two ways of an SR2 read. -/
theorem clrAddrReadsSr2 : Obligations.ClrAddrReadsSr2 := by
  intro seq tgt s
  refine ⟨fun haddr hseen => ?_, fun h => ?_⟩
  · rw [exec_clrAddr, readSr2_clears ⟨haddr, hseen⟩]
    rfl
  · rw [exec_clrAddr, readSr2_keeps h]

/-- Settles O21: BUF after the store, by its reads. -/
theorem rxDataStoresOneByte : Obligations.RxDataStoresOneByte := by
  intro seq tgt s
  refine ⟨fun hidx => ?_, fun hidx => exec_rxData_outside seq tgt s (Nat.not_lt.2 hidx)⟩
  exact ⟨_, Memory.read_write_same _ _ _, fun j hj => Memory.read_write_ne _ _ j _ hj, exec_rxData_inside seq tgt s hidx⟩

/-- Settles O22; with two bytes done and NOSTOP = 0 every field of STATUS is known. -/
theorem doneEndsTheCommandOk : Obligations.DoneEndsTheCommandOk := by
  intro seq tgt s
  refine ⟨rfl, fun hidx hnostop => ⟨_, rfl, ?_⟩⟩
  simp [statusImage, hidx, hnostop, ResultCode.code]

/-- Settles O23: the rows of rule R134 without checks. -/
theorem pollsWithoutChecks : Obligations.PollsWithoutChecks := by
  intro seq tgt s
  refine ⟨congrArg Host.Outcome.next ?_, congrArg Host.Outcome.next ?_, congrArg Host.Outcome.next ?_⟩
  · exact pollOnce_unchecked seq tgt s noAction (pollReads_sr1 s rfl rfl rfl) rfl rfl
  · rw [pollOnce_unchecked seq tgt s arm (row := rowMb) (v := ⟨0#16, 0#16, s.b.sr2⟩) (u := (readSr2 s).2) rfl rfl rfl]
    simp [rowMb, PollCond.holds, arm, State.withM]
  · rw [pollOnce_unchecked seq tgt s noAction (row := rowStop) (v := ⟨s.b.cr1, 0#16, 0#16⟩) (u := s) rfl rfl rfl]
    cases h : flag s.b.cr1 9 <;> simp [rowStop, PollCond.holds, noAction, h]

/-- Settles O24: the rows of rule R134 with checks, by the registers each reads. -/
theorem pollsWithChecks : Obligations.PollsWithChecks := by
  intro seq tgt s
  refine ⟨congrArg Host.Outcome.next ?_, congrArg Host.Outcome.next ?_, congrArg Host.Outcome.next ?_,
    fun harmed => congrArg Host.Outcome.next ?_, fun harmed => congrArg Host.Outcome.next ?_⟩
  · rw [pollOnce_of_reads seq tgt s noAction (pollReads_sr1 s (row := rowAddr) rfl rfl rfl)]
    simp [rowAddr, ArmedCheck.fails, PollCond.holds, noAction]
    rfl
  · rw [pollOnce_of_reads seq tgt s noAction (pollReads_sr1_sr2 s (row := rowTxe) rfl rfl rfl)]
    simp [rowTxe, armedCheck_arloMasterBusy, PollCond.holds, noAction]
    rfl
  · rw [pollOnce_of_reads seq tgt s countByte (pollReads_sr1_sr2 s (row := rowBtf) rfl rfl rfl)]
    simp [rowBtf, armedCheck_arloMasterBusy, PollCond.holds, countByte, State.withM]
  · rw [pollOnce_of_reads seq tgt s noAction (pollReads_sr1_sr2 s (row := rowRxne) rfl rfl harmed)]
    simp [rowRxne, armedCheck_arloMasterBusy, PollCond.holds, noAction, harmed]
    rfl
  · rw [pollOnce_of_reads seq tgt s noAction (pollReads_sr1 s (row := rowRxne) rfl rfl harmed)]
    simp [rowRxne, PollCond.holds, noAction, harmed]
    rfl

/-- Settles O26: `m.cnt` - 1 is 0 exactly when `m.cnt` is 1. -/
theorem budgetRuleAndRaise : Obligations.BudgetRuleAndRaise := by
  intro s
  have hlast : s.m.cnt - 1 = 0#16 ↔ s.m.cnt = 1#16 := by bv_omega
  refine ⟨fun h0 => if_pos h0, fun h0 h1 => ?_, fun h0 h1 => ?_, fun e => ⟨fun hrom hupc => ?_, ?_⟩⟩
  · rw [pollUnresolved, if_neg h0, if_neg (mt hlast.1 h1)]
    rfl
  · rw [pollUnresolved, if_neg h0, if_pos (hlast.2 h1), hlast.2 h1]
    rfl
  · have hloads : abortEntry ≠ s.m.upc ∧ entersPoll s.rom abortEntry = true := by
      refine ⟨Ne.symm hupc, ?_⟩
      rw [entersPoll, show s.rom[abortEntry.toNat]? = some 0x0038#16 from hrom]
      rfl
    have hcnt : (raise e s).m.cnt = s.cfg.pollBudget := if_pos hloads
    rw [← hcnt]
    rfl
  · exact ⟨(raise e s).m.cnt, rfl⟩

/-- Settles O25, from everything that one iteration of a poll can do. -/
theorem pollIterationStaysRaisesOrCompletes : Obligations.PollIterationStaysRaisesOrCompletes := by
  intro seq tgt s i hi
  obtain ⟨row, act, hop⟩ : ∃ row act, PollOp i row act seq tgt := by
    simp only [List.mem_cons, List.not_mem_nil, or_false] at hi
    rcases hi with rfl | rfl | rfl | rfl | rfl | rfl | rfl
    · exact ⟨_, _, .pollSb seq tgt⟩
    · exact ⟨_, _, .pollMb seq tgt⟩
    · exact ⟨_, _, .pollAddr seq tgt⟩
    · exact ⟨_, _, .pollTxe seq tgt⟩
    · exact ⟨_, _, .pollBtf seq tgt⟩
    · exact ⟨_, _, .pollRxne seq tgt⟩
    · exact ⟨_, _, .pollStop seq tgt⟩
  obtain ⟨b, -, ⟨hflags, -⟩, hend⟩ := pollOnce_ends row act seq tgt s
  obtain ⟨_, _, _, rfl⟩ := pollFlags_shape hflags
  refine ⟨_, hop.exec_eq, ?_⟩
  rcases hend with ⟨e, c, he, h⟩ | ⟨c, h⟩ | ⟨_, h⟩ <;> rw [h]
  · refine ⟨.inr (.inl ⟨rfl, rfl, ?_⟩), rfl, rfl, rfl, rfl, rfl, rfl, rfl, rfl⟩
    cases e with
    | none => exact absurd rfl he
    | timeout => exact .inl rfl
    | nackReceived => exact .inr (.inl rfl)
    | arbitrationLost => exact .inr (.inr rfl)
  · exact ⟨.inl ⟨rfl, rfl⟩, rfl, rfl, rfl, rfl, rfl, rfl, rfl, rfl⟩
  · obtain ⟨_, _, e⟩ := hop.act_shape (s.withB _)
    rw [e]
    refine ⟨.inr (.inr ⟨_, rfl, rfl, rfl⟩), ?_⟩
    simp

end Sys2Proof.Proofs

/-! The run of one WRITE or READ: what the bus may do, by the events it emits, what a step may do while a command runs, and
which step ends a command with OK (rules R152, R153, R170 to R178). -/

namespace Sys2Proof.Machine

open Sys2Proof.Safety

/-! ### What the bus may do (rules R170 to R178) -/

/-- The controller after it has sent a requested STOP (rules R174, R175). -/
def Bc.sendStop (b : Bc) : Bc := ({ b with cr1 := setFlag b.cr1 cr1STOP false } : Bc).dropMaster

section
variable (b : Bc)

@[simp] theorem Bc.sendStop_bmode : b.sendStop.bmode = .idle := rfl
@[simp] theorem Bc.sendStop_cr1 : b.sendStop.cr1 = setFlag b.cr1 cr1STOP false := rfl
@[simp] theorem Bc.sendStop_dr : b.sendStop.dr = b.dr := rfl
@[simp] theorem Bc.sendStop_txPending : b.sendStop.txPending = false := rfl

/-- A STOP clears SB, ADDR, BTF and TXE. -/
theorem Bc.flag_sendStop_sr1 (k : Nat) :
    flag b.sendStop.sr1 k = if k ∈ [sr1SB, sr1ADDR, sr1BTF, sr1TXE] then false else flag b.sr1 k := by
  simp (disch := decide) only [Bc.sendStop, Bc.dropMaster, flag_setFlag]
  grind

end

/-- `BusMove held b es c`: a step of the bus controller or the environment may take the controller from `b` to `c` and
emit `es`. While `held` is true the window of rule R151 holds the receive step back. -/
inductive BusMove (held : Bool) (b : Bc) : List Event → Bc → Prop where
  | started (hpe : flag b.cr1 cr1PE = true) (hstart : flag b.cr1 cr1START = true) (hmode : b.bmode = .idle) :
      BusMove held b [.start] { b with
        sr1 := setFlag (setFlag (setFlag b.sr1 sr1SB true) sr1TXE false) sr1BTF false
        sr2 := setFlag (setFlag b.sr2 sr2MSL true) sr2BUSY true
        cr1 := setFlag b.cr1 cr1START false
        sr1SeenSB := false
        bmode := .mSb }
  | addressAcked (hmode : b.bmode = .mAddr) :
      BusMove held b [.addr (lowByte b.dr), .ack] { b with
        sr1 := setFlag b.sr1 sr1ADDR true
        sr1SeenADDR := false
        sr2 := setFlag b.sr2 sr2TRA (!flag b.dr 0)
        bmode := if flag b.dr 0 then .mRx else .mTx }
  | addressNacked (hmode : b.bmode = .mAddr) :
      BusMove held b [.addr (lowByte b.dr), .nack] { b with sr1 := setFlag b.sr1 sr1AF true, bmode := .mNacked }
  | addressLost (hmode : b.bmode = .mAddr) : BusMove held b [.arbLost] b.loseArbitration
  | byteAcked (hmode : b.bmode = .mTx) (hpending : b.txPending = true) :
      BusMove held b [.data (lowByte b.dr), .ack] { b with
        txPending := false, sr1 := setFlag (setFlag b.sr1 sr1TXE true) sr1BTF true }
  | byteNacked (hmode : b.bmode = .mTx) (hpending : b.txPending = true) :
      BusMove held b [.data (lowByte b.dr), .nack] { b with
        txPending := false, sr1 := setFlag b.sr1 sr1AF true, bmode := .mNacked }
  | byteLost (hmode : b.bmode = .mTx) (hpending : b.txPending = true) :
      BusMove held b [.arbLost] { b.loseArbitration with txPending := false }
  | receivedStop (d : Byte) (hmode : b.bmode = .mRx) (hrxne : flag b.sr1 sr1RXNE = false)
      (haddr : flag b.sr1 sr1ADDR = false) (hheld : held = false) (hstop : flag b.cr1 cr1STOP = true) :
      BusMove held b [.data d, if flag b.cr1 cr1ACK then .ack else .nack, .stop]
        ({ b with dr := zext16 d, sr1 := setFlag b.sr1 sr1RXNE true } : Bc).sendStop
  | receivedAck (d : Byte) (hmode : b.bmode = .mRx) (hrxne : flag b.sr1 sr1RXNE = false)
      (haddr : flag b.sr1 sr1ADDR = false) (hheld : held = false) (hstop : flag b.cr1 cr1STOP = false)
      (hack : flag b.cr1 cr1ACK = true) :
      BusMove held b [.data d, .ack] { b with dr := zext16 d, sr1 := setFlag b.sr1 sr1RXNE true }
  | receivedNack (d : Byte) (hmode : b.bmode = .mRx) (hrxne : flag b.sr1 sr1RXNE = false)
      (haddr : flag b.sr1 sr1ADDR = false) (hheld : held = false) (hstop : flag b.cr1 cr1STOP = false)
      (hack : flag b.cr1 cr1ACK = false) :
      BusMove held b [.data d, .nack] { b with
        dr := zext16 d, sr1 := setFlag b.sr1 sr1RXNE true, bmode := .mRxEnd }
  | stopped (hstop : flag b.cr1 cr1STOP = true) (hstalled : b.stalled = true) :
      BusMove held b [.stop] b.sendStop
  | stoppedIdle (hstop : flag b.cr1 cr1STOP = true) (hmaster : b.bmode.isMaster = false) :
      BusMove held b [] { b with cr1 := setFlag b.cr1 cr1STOP false }
  | claimed (hmode : b.bmode = .idle) :
      BusMove held b [] { b with otherBusy := true, sr2 := setFlag b.sr2 sr2BUSY true }
  | released (hmaster : b.bmode.isMaster = false) :
      BusMove held b [] { b with otherBusy := false, sr2 := setFlag b.sr2 sr2BUSY false, bmode := .idle }

/-- The window of rule R151 in a state: the receive step waits until NACK_STOP is done. -/
def windowHolds (s : State) : Bool :=
  s.cfg.lastByteWindowMet && s.m.busy && decide (s.m.upc = nackStopEntry)

/-- Everything a step of the bus controller or the environment can do. -/
theorem busStep_busMove {τ : Turn} {s t : State} (h : busStep τ s = some t) :
    ∃ es c, BusMove (windowHolds s) s.b es c ∧ t = { s with b := c, trace := s.trace ++ es } := by
  have two (x y : Event) : (s.trace ++ [x]) ++ [y] = s.trace ++ [x, y] := by simp
  have three (x y z : Event) : (s.trace ++ [x]) ++ [y] ++ [z] = s.trace ++ [x, y, z] := by simp
  cases τ with
  | host | mte => cases h
  | bcStart =>
    obtain ⟨⟨hpe, hstart, hmode, -⟩, h⟩ := Option.ite_none_right_eq_some.1 h
    cases h
    exact ⟨_, _, .started hpe hstart hmode, rfl⟩
  | bcAddr ans =>
    obtain ⟨hmode, h⟩ := Option.ite_none_right_eq_some.1 h
    cases ans <;> cases h
    · exact ⟨_, _, .addressAcked hmode, by rw [← two]; rfl⟩
    · exact ⟨_, _, .addressNacked hmode, by rw [← two]; rfl⟩
  | bcAddrArb =>
    obtain ⟨⟨-, hmode⟩, h⟩ := Option.ite_none_right_eq_some.1 h
    cases h
    exact ⟨_, _, .addressLost hmode, rfl⟩
  | bcTx draw =>
    obtain ⟨⟨hmode, hpending⟩, h⟩ := Option.ite_none_right_eq_some.1 h
    cases draw with
    | arb =>
      cases (Option.ite_none_right_eq_some.1 h).2
      exact ⟨_, _, .byteLost hmode hpending, rfl⟩
    | ack => cases h; exact ⟨_, _, .byteAcked hmode hpending, by rw [← two]; rfl⟩
    | nack => cases h; exact ⟨_, _, .byteNacked hmode hpending, by rw [← two]; rfl⟩
  | bcRx d =>
    obtain ⟨henabled, h⟩ := Option.ite_none_right_eq_some.1 h
    simp only [bcRxEnabled, Bool.and_eq_true, decide_eq_true_eq, Bool.not_eq_true'] at henabled
    obtain ⟨⟨⟨hmode, haddr⟩, hrxne⟩, hheld⟩ := henabled
    split at h
    · next hstop => cases h; exact ⟨_, _, .receivedStop d hmode hrxne haddr hheld hstop, by rw [← three]; rfl⟩
    · next hstop =>
      have hstop : flag s.b.cr1 cr1STOP = false := by simpa using hstop
      split at h <;> cases h
      · next hack =>
        exact ⟨_, _, .receivedAck d hmode hrxne haddr hheld hstop hack, by rw [← two]; rfl⟩
      · next hack =>
        exact ⟨_, _, .receivedNack d hmode hrxne haddr hheld hstop (by simpa using hack), by rw [← two]; rfl⟩
  | bcStop =>
    obtain ⟨hguard, h⟩ := Option.ite_none_right_eq_some.1 h
    obtain ⟨hstop, hstalled⟩ := (Bool.and_eq_true _ _).mp hguard
    cases h
    exact ⟨_, _, .stopped hstop hstalled, rfl⟩
  | bcStopIdle =>
    obtain ⟨hguard, h⟩ := Option.ite_none_right_eq_some.1 h
    obtain ⟨hstop, hmaster⟩ : flag s.b.cr1 cr1STOP = true ∧ s.b.bmode.isMaster = false := by simpa using hguard
    cases h
    exact ⟨_, _, .stoppedIdle hstop hmaster, by simp [State.withB]⟩
  | envClaim =>
    obtain ⟨⟨-, hmode, -⟩, h⟩ := Option.ite_none_right_eq_some.1 h
    cases h
    exact ⟨_, _, .claimed hmode, by simp [State.withB]⟩
  | envRelease =>
    obtain ⟨hguard, h⟩ := Option.ite_none_right_eq_some.1 h
    obtain ⟨-, hmaster⟩ : s.b.otherBusy = true ∧ s.b.bmode.isMaster = false := by simpa using hguard
    cases h
    exact ⟨_, _, .released hmaster, by simp [State.withB]⟩

/-! ### What a move of the bus keeps -/

theorem Bc.isMaster_of_stalled {b : Bc} (h : b.stalled = true) : b.bmode.isMaster = true := by
  unfold Bc.stalled at h
  cases hm : b.bmode <;> simp_all [BMode.isMaster]

section
variable {held : Bool} {b c : Bc} {es : List Event} (h : BusMove held b es c)
include h

/-- CR1 changes by a clear of START or STOP only (rule R180). -/
theorem BusMove.cr1_cases :
    c.cr1 = b.cr1 ∨ c.cr1 = setFlag b.cr1 cr1START false ∨ c.cr1 = setFlag b.cr1 cr1STOP false := by
  cases h with
  | started => exact .inr (.inl rfl)
  | receivedStop | stopped | stoppedIdle => exact .inr (.inr rfl)
  | _ => exact .inl rfl

/-- The other bits of CR1 stay. -/
theorem BusMove.cr1_kept {k : Nat} (hstart : k ≠ cr1START) (hstop : k ≠ cr1STOP) : flag c.cr1 k = flag b.cr1 k := by
  rcases h.cr1_cases with e | e | e <;> rw [e]
  · exact flag_setFlag_ne _ _ _ _ (by decide) hstart
  · exact flag_setFlag_ne _ _ _ _ (by decide) hstop

/-- A bit of CR1 that is 0 stays 0. -/
theorem BusMove.cr1_clear {k : Nat} (h0 : flag b.cr1 k = false) : flag c.cr1 k = false := by
  rcases h.cr1_cases with e | e | e <;> rw [e]
  · exact h0
  · rw [flag_setFlag _ _ _ _ (by decide), h0, ite_self]
  · rw [flag_setFlag _ _ _ _ (by decide), h0, ite_self]

/-- Only a received byte sets RXNE. -/
theorem BusMove.rxne_kept (hm : b.bmode ≠ .mRx) : flag c.sr1 sr1RXNE = flag b.sr1 sr1RXNE := by
  cases h with
  | receivedStop _ hmode | receivedAck _ hmode | receivedNack _ hmode => exact absurd hmode hm
  | stopped => simp [Bc.flag_sendStop_sr1]
  | _ => simp (disch := decide) [Bc.loseArbitration, flag_setFlag_ne]

/-- While the block is not master the bus shows nothing of it but a START that was requested. -/
theorem BusMove.of_notMaster (hm : b.bmode.isMaster = false) :
    (flag b.cr1 cr1START = true ∧ es = [.start]) ∨
      (es = [] ∧ c.bmode.isMaster = false ∧ c.sr1 = b.sr1 ∧ c.dr = b.dr ∧ c.txPending = b.txPending) := by
  cases h with
  | started _ hstart => exact .inl ⟨hstart, rfl⟩
  | stopped _ hstalled => simp [Bc.isMaster_of_stalled hstalled] at hm
  | stoppedIdle | claimed => exact .inr ⟨rfl, hm, rfl, rfl, rfl⟩
  | released => exact .inr ⟨rfl, rfl, rfl, rfl, rfl⟩
  | _ => simp_all [BMode.isMaster]

end

/-! ### The controller's part in a transfer, from the request of START to the end -/

/-- No START of the running command has been sent; with `quiet`, the block is not master either. -/
structure Bc.Unstarted (quiet : Prop) (b : Bc) : Prop where
  mode : b.bmode ≠ .mSb
  sb : flag b.sr1 sr1SB = false
  pending : b.txPending = true → b.bmode = .mTx
  notMaster : quiet → b.bmode.isMaster = false

/-- The START of the running command has been sent, and the address byte is not written. -/
structure Bc.StartSent (b : Bc) : Prop where
  mode : b.bmode = .mSb
  pe : flag b.cr1 cr1PE = true
  start : flag b.cr1 cr1START = false
  sb : flag b.sr1 sr1SB = true
  txe : flag b.sr1 sr1TXE = false
  btf : flag b.sr1 sr1BTF = false
  pending : b.txPending = false

/-- The controller is enabled, and neither requests nor has just sent a START. -/
structure Bc.Engaged (b : Bc) : Prop where
  pe : flag b.cr1 cr1PE = true
  start : flag b.cr1 cr1START = false
  sb : flag b.sr1 sr1SB = false

/-- The address byte `v` is written and waits to be sent. -/
structure Bc.Addressing (v : Byte) (b : Bc) : Prop extends b.Engaged where
  mode : b.bmode = .mAddr
  dr : b.dr = zext16 v
  txe : flag b.sr1 sr1TXE = false
  btf : flag b.sr1 sr1BTF = false
  pending : b.txPending = false

/-- The running command has lost the bus, or its address or a byte was not acknowledged: it will not send again. -/
structure Bc.OffBus (b : Bc) : Prop where
  mode : b.bmode = .idle ∨ b.bmode = .lost ∨ b.bmode = .mNacked
  start : flag b.cr1 cr1START = false
  sb : flag b.sr1 sr1SB = false

/-- The block is not master and requests no START. -/
structure Bc.Released (b : Bc) : Prop where
  notMaster : b.bmode.isMaster = false
  start : flag b.cr1 cr1START = false

/-- A master that sends a STOP is off the bus. -/
theorem Bc.offBus_sendStop {b : Bc} (hstart : flag b.cr1 cr1START = false) : b.sendStop.OffBus :=
  ⟨.inl rfl, by simp (disch := decide) [flag_setFlag_ne, hstart], by simp [Bc.flag_sendStop_sr1]⟩

theorem Bc.released_sendStop {b : Bc} (hstart : flag b.cr1 cr1START = false) : b.sendStop.Released :=
  ⟨rfl, by simp (disch := decide) [flag_setFlag_ne, hstart]⟩

section
variable {held : Bool} {b c : Bc} {es : List Event} {quiet : Prop} {v : Byte} (h : BusMove held b es c)
include h

/-- The START of the running command. -/
theorem BusMove.sends_start (hb : b.Unstarted quiet) (hes : es = [.start]) : flag b.cr1 cr1START = true ∧ c.StartSent := by
  cases h with
  | started hpe hstart hidle =>
    have hpending : b.txPending = false := by
      by_contra hp
      rw [hb.pending (by simpa using hp)] at hidle
      cases hidle
    refine ⟨hstart, rfl, ?_, ?_, ?_, ?_, ?_, hpending⟩
    all_goals simp (disch := decide) only [flag_setFlag_ne, flag_setFlag_same, hpe]
  | _ => simp at hes

/-- Before its START the bus may still show the end of an old transaction. -/
theorem BusMove.of_unstarted (hb : b.Unstarted quiet) (hes : es ≠ [.start]) :
    c.Unstarted quiet ∧ Event.start ∉ es ∧ (quiet → es = []) := by
  obtain ⟨hmode, hsb, hpending, hquiet⟩ := hb
  have hrest (hq : quiet) := (h.of_notMaster (hquiet hq)).resolve_left fun hs => hes hs.2
  refine ⟨⟨?_, ?_, ?_, fun hq => (hrest hq).2.1⟩, ?_, fun hq => (hrest hq).1⟩
  all_goals clear hrest hquiet
  · cases h with
    | started => exact absurd rfl hes
    | addressAcked => cases flag b.dr 0 <;> simp
    | _ => simp [hmode, Bc.loseArbitration]
  · cases h with
    | started => exact absurd rfl hes
    | receivedStop | stopped => simp [Bc.flag_sendStop_sr1]
    | _ => simp (disch := decide) [Bc.loseArbitration, flag_setFlag_ne, hsb]
  · cases h with
    | released hmaster =>
      intro hp
      rw [hpending hp] at hmaster
      cases hmaster
    | _ => simp_all [Bc.loseArbitration]
  · cases h with
    | started => exact absurd rfl hes
    | receivedStop => cases flag b.cr1 cr1ACK <;> simp
    | _ => simp

/-- A START that is sent is followed by the address, or by a STOP of an earlier command. -/
theorem BusMove.of_startSent (hb : b.StartSent) : flag b.cr1 cr1STOP = true ∧ es = [.stop] ∧ c = b.sendStop := by
  have hmode := hb.mode
  cases h with
  | stopped hstop => exact ⟨hstop, rfl, rfl⟩
  | _ => simp_all [BMode.isMaster]

/-- The address is acknowledged, or the block is off the bus. -/
theorem BusMove.of_addressing (hb : b.Addressing v) :
    (es = [.addr v, .ack] ∧ c.Engaged ∧ c.bmode = (if v.getLsbD 0 then .mRx else .mTx) ∧ c.txPending = false ∧
      c.cr1 = b.cr1 ∧ c.sr1 = setFlag b.sr1 sr1ADDR true) ∨
      (c.OffBus ∧ ∀ k, k < sr1ARLO → flag c.sr1 k = flag b.sr1 k) := by
  obtain ⟨⟨hpe, hstart, hsb⟩, hmode, hdr, -, -, hpending⟩ := hb
  have hbit : flag b.dr 0 = v.getLsbD 0 := by simp [hdr, flag, zext16]
  have hkept (n k : Nat) (hn : n = sr1AF ∨ n = sr1ARLO) (hk : k < sr1ARLO) :
      flag (setFlag b.sr1 n true) k = flag b.sr1 k := by
    have : k ≠ n ∧ n < 16 := by rcases hn with rfl | rfl <;> exact ⟨by rintro rfl; exact absurd hk (by decide), by decide⟩
    exact flag_setFlag_ne _ _ _ _ this.2 this.1
  cases h with
  | addressAcked =>
    refine .inl ⟨by simp [hdr], ⟨hpe, hstart, ?_⟩, by simp [hbit], hpending, rfl, rfl⟩
    simp (disch := decide) only [flag_setFlag_ne, hsb]
  | addressNacked =>
    exact .inr ⟨⟨.inr (.inr rfl), hstart, (hkept _ _ (.inl rfl) (by decide)).trans hsb⟩,
      fun k => hkept sr1AF k (.inl rfl)⟩
  | addressLost =>
    exact .inr ⟨⟨.inr (.inl rfl), hstart, (hkept _ _ (.inr rfl) (by decide)).trans hsb⟩,
      fun k => hkept sr1ARLO k (.inr rfl)⟩
  | _ => simp_all [BMode.isMaster, Bc.stalled]

/-- A block off the bus stays off it, and no flag of SR1 comes up. -/
theorem BusMove.of_offBus (hb : b.OffBus) :
    c.OffBus ∧ ∀ k, flag b.sr1 k = false → flag c.sr1 k = false := by
  obtain ⟨hmode, hstart, hsb⟩ := hb
  cases h with
  | started _ hreq => simp [hstart] at hreq
  | stopped => exact ⟨Bc.offBus_sendStop hstart, fun k hk => by simp [Bc.flag_sendStop_sr1, hk]⟩
  | stoppedIdle => exact ⟨⟨hmode, by simp (disch := decide) only [flag_setFlag_ne, hstart], hsb⟩, fun _ hk => hk⟩
  | claimed => exact ⟨⟨hmode, hstart, hsb⟩, fun _ hk => hk⟩
  | released => exact ⟨⟨.inl rfl, hstart, hsb⟩, fun _ hk => hk⟩
  | _ => simp_all

/-- A released block shows nothing and stays released. -/
theorem BusMove.of_released (hb : b.Released) : es = [] ∧ c.Released ∧ c.sr1 = b.sr1 ∧ c.dr = b.dr := by
  rcases h.of_notMaster hb.notMaster with ⟨hreq, -⟩ | ⟨hes, hm, hsr1, hdr, -⟩
  · simp [hb.start] at hreq
  · exact ⟨hes, ⟨hm, h.cr1_clear hb.start⟩, hsr1, hdr⟩

/-- A transmitter with no byte to send can only send a STOP. -/
theorem BusMove.of_transmitter (hmode : b.bmode = .mTx) (hpending : b.txPending = false) :
    es = [.stop] ∧ c = b.sendStop := by
  cases h with
  | stopped => exact ⟨rfl, rfl⟩
  | _ => simp_all [BMode.isMaster]

/-- A pending byte is acknowledged, or the block is off the bus. -/
theorem BusMove.of_pending (hb : b.Engaged) (hmode : b.bmode = .mTx) (hpending : b.txPending = true) :
    (es = [.data (lowByte b.dr), .ack] ∧ c.Engaged ∧ c.bmode = .mTx ∧ c.txPending = false) ∨
      (c.OffBus ∧ flag c.sr1 sr1BTF = flag b.sr1 sr1BTF) := by
  obtain ⟨hpe, hstart, hsb⟩ := hb
  cases h with
  | byteAcked => exact .inl ⟨rfl, ⟨hpe, hstart, by simp (disch := decide) only [flag_setFlag_ne, hsb]⟩, hmode, rfl⟩
  | byteNacked =>
    exact .inr ⟨⟨.inr (.inr rfl), hstart, by simp (disch := decide) only [flag_setFlag_ne, hsb]⟩,
      by simp (disch := decide) only [flag_setFlag_ne]⟩
  | byteLost =>
    exact .inr ⟨⟨.inr (.inl rfl), hstart, by simp (disch := decide) only [Bc.loseArbitration, flag_setFlag_ne, hsb]⟩,
      by simp (disch := decide) only [Bc.loseArbitration, flag_setFlag_ne]⟩
  | _ => simp_all [BMode.isMaster, Bc.stalled]

/-- A receiver takes a byte, or sends a STOP while it is stalled. -/
theorem BusMove.of_receiver (hmode : b.bmode = .mRx) :
    (es = [.stop] ∧ flag b.cr1 cr1STOP = true ∧ c = b.sendStop) ∨
      (held = false ∧ flag b.sr1 sr1RXNE = false ∧ flag b.sr1 sr1ADDR = false ∧ ∃ d : Byte,
        (flag b.cr1 cr1STOP = true ∧ es = [.data d, if flag b.cr1 cr1ACK then .ack else .nack, .stop] ∧
          c = ({ b with dr := zext16 d, sr1 := setFlag b.sr1 sr1RXNE true } : Bc).sendStop) ∨
        (flag b.cr1 cr1STOP = false ∧ flag b.cr1 cr1ACK = true ∧ es = [.data d, .ack] ∧
          c = { b with dr := zext16 d, sr1 := setFlag b.sr1 sr1RXNE true }) ∨
        (flag b.cr1 cr1STOP = false ∧ flag b.cr1 cr1ACK = false)) := by
  cases h with
  | receivedStop d _ hrxne haddr hheld hstop => exact .inr ⟨hheld, hrxne, haddr, d, .inl ⟨hstop, rfl, rfl⟩⟩
  | receivedAck d _ hrxne haddr hheld hstop hack =>
    exact .inr ⟨hheld, hrxne, haddr, d, .inr (.inl ⟨hstop, hack, rfl, rfl⟩)⟩
  | receivedNack d _ hrxne haddr hheld hstop hack => exact .inr ⟨hheld, hrxne, haddr, d, .inr (.inr ⟨hstop, hack⟩)⟩
  | stopped hstop => exact .inl ⟨rfl, hstop, rfl⟩
  | _ => simp_all [BMode.isMaster]

end

/-! ### The reads of a poll leave the controller's part as it is (rule R38) -/

section
variable {b c : Bc} {quiet : Prop} {v : Byte} (h : PollFlags b c)
include h

/-- The reads of a poll leave every flag of SR1 but ADDR and TXE. -/
theorem pollFlags_flag {k : Nat} (hk : k < 16) (haddr : k ≠ sr1ADDR) (htxe : k ≠ sr1TXE) :
    flag c.sr1 k = flag b.sr1 k := by
  have hmask : ∀ k < 16, k ≠ sr1ADDR → k ≠ sr1TXE → flag 0xFFFD#16 k = true ∧ flag 0x0080#16 k = false := by decide
  obtain ⟨h1, h2⟩ := hmask k hk haddr htxe
  rcases h.2 with ⟨-, e⟩ | ⟨e, -⟩ <;> rw [e]
  rw [flag_or, flag_and, h1]
  split <;> simp [h2]

/-- They never clear TXE. -/
theorem pollFlags_txe (htxe : flag b.sr1 sr1TXE = true) : flag c.sr1 sr1TXE = true := by
  rcases h.2 with ⟨-, e⟩ | ⟨e, -⟩ <;> rw [e]
  · rw [flag_or, flag_and, htxe]
    rfl
  · exact htxe

/-- They set TXE in a transmitter only. -/
theorem pollFlags_txe_kept (hmode : b.bmode ≠ .mTx) : flag c.sr1 sr1TXE = flag b.sr1 sr1TXE := by
  rcases h.2 with ⟨-, e⟩ | ⟨e, -⟩ <;> rw [e]
  rw [flag_or, flag_and, if_neg hmode, flag_zero, Bool.or_false]
  exact Bool.and_true _

theorem pollFlags_kept : c.cr1 = b.cr1 ∧ c.bmode = b.bmode ∧ c.dr = b.dr ∧ c.txPending = b.txPending := by
  obtain ⟨_, _, _, rfl⟩ := pollFlags_shape h
  exact ⟨rfl, rfl, rfl, rfl⟩

theorem Bc.Unstarted.polled (hb : b.Unstarted quiet) : c.Unstarted quiet := by
  obtain ⟨-, hmode, -, hpending⟩ := pollFlags_kept h
  constructor
  · rw [hmode]; exact hb.mode
  · exact (pollFlags_flag h (by decide) (by decide) (by decide)).trans hb.sb
  · rw [hmode, hpending]; exact hb.pending
  · rw [hmode]; exact hb.notMaster

theorem Bc.StartSent.polled (hb : b.StartSent) : c.StartSent := by
  obtain ⟨hcr1, hmode, -, hpending⟩ := pollFlags_kept h
  have htx : b.bmode ≠ .mTx := by rw [hb.mode]; decide
  exact ⟨hmode.trans hb.mode, by rw [hcr1, hb.pe], by rw [hcr1, hb.start],
    (pollFlags_flag h (by decide) (by decide) (by decide)).trans hb.sb, (pollFlags_txe_kept h htx).trans hb.txe,
    (pollFlags_flag h (by decide) (by decide) (by decide)).trans hb.btf, hpending.trans hb.pending⟩

theorem Bc.Engaged.polled (hb : b.Engaged) : c.Engaged := by
  obtain ⟨hcr1, -⟩ := pollFlags_kept h
  exact ⟨by rw [hcr1, hb.pe], by rw [hcr1, hb.start],
    (pollFlags_flag h (by decide) (by decide) (by decide)).trans hb.sb⟩

theorem Bc.Addressing.polled (hb : b.Addressing v) : c.Addressing v := by
  obtain ⟨-, hmode, hdr, hpending⟩ := pollFlags_kept h
  have htx : b.bmode ≠ .mTx := by rw [hb.mode]; decide
  exact ⟨hb.toEngaged.polled h, hmode.trans hb.mode, hdr.trans hb.dr, (pollFlags_txe_kept h htx).trans hb.txe,
    (pollFlags_flag h (by decide) (by decide) (by decide)).trans hb.btf, hpending.trans hb.pending⟩

theorem Bc.OffBus.polled (hb : b.OffBus) : c.OffBus := by
  obtain ⟨hcr1, hmode, -, -⟩ := pollFlags_kept h
  exact ⟨by rw [hmode]; exact hb.mode, by rw [hcr1, hb.start],
    (pollFlags_flag h (by decide) (by decide) (by decide)).trans hb.sb⟩

theorem Bc.Released.polled (hb : b.Released) : c.Released := by
  obtain ⟨hcr1, hmode, -, -⟩ := pollFlags_kept h
  exact ⟨by rw [hmode, hb.notMaster], by rw [hcr1, hb.start]⟩

end

/-! ### The head of a transfer: GEN_START, POLL_SB, POLL_MB and TX_ADDR (rules R137 to R140) -/

/-- What the bus may show of an old transaction: no START, and nothing at all with `quiet`. -/
def OldEvents (quiet : Prop) (old : List Event) : Prop := Event.start ∉ old ∧ (quiet → old = [])

theorem oldEvents_nil (quiet : Prop) : OldEvents quiet [] := ⟨by simp, fun _ => rfl⟩

theorem OldEvents.append {quiet : Prop} {old es : List Event} (hold : OldEvents quiet old) (hstart : Event.start ∉ es)
    (hes : quiet → es = []) : OldEvents quiet (old ++ es) :=
  ⟨by simp [hold.1, hstart], fun hq => by rw [hold.2 hq, hes hq]; rfl⟩

/-- A command whose GEN_START stands at `g` is at `u`, from GEN_START to TX_ADDR; `evs` are the events since its
acceptance. -/
inductive HeadPhase (quiet : Prop) (g u : Nat) (b : Bc) (evs : List Event) : Prop where
  | waiting (hu : u = g ∨ u = g + 1) (hrequest : u = g → flag b.cr1 cr1START = false) (hb : b.Unstarted quiet)
      (hold : OldEvents quiet evs)
  | started {old : List Event} (hu : g + 1 ≤ u ∧ u ≤ g + 3) (hseen : u ≠ g + 1 → b.sr1SeenSB = true)
      (hb : b.StartSent) (hold : OldEvents quiet old) (hevs : evs = old ++ [.start])

section
variable {quiet : Prop} {g u : Nat} {b c : Bc} {evs es : List Event}

theorem HeadPhase.place (h : HeadPhase quiet g u b evs) : g ≤ u ∧ u ≤ g + 3 := by
  cases h with
  | waiting hu => omega
  | started hu => omega

theorem HeadPhase.notReceiver (hq : quiet) (h : HeadPhase quiet g u b evs) : b.bmode ≠ .mRx := by
  intro e
  cases h with
  | waiting _ _ hb => simpa [e, BMode.isMaster] using hb.notMaster hq
  | started _ _ hb => simp [hb.mode] at e

theorem HeadPhase.polled (h : HeadPhase quiet g u b evs) (hflags : PollFlags b c) : HeadPhase quiet g u c evs := by
  cases h with
  | waiting hu hrequest hb hold =>
    refine .waiting hu (fun e => ?_) (hb.polled hflags) hold
    rw [(pollFlags_kept hflags).1]
    exact hrequest e
  | started hu hseen hb hold hevs =>
    refine .started hu (fun e => ?_) (hb.polled hflags) hold hevs
    rcases hflags.1 with e' | ⟨e', -⟩
    · exact e'.trans (hseen e)
    · exact e'

/-- The bus sends the START, or shows the end of an old transaction; an old STOP may cut a START off. -/
theorem HeadPhase.bus {held : Bool} (h : HeadPhase quiet g u b evs) (hmove : BusMove held b es c) :
    HeadPhase quiet g u c (evs ++ es) ∨
      ((g + 1 ≤ u ∧ u ≤ g + 3) ∧ b.StartSent ∧ flag b.cr1 cr1STOP = true ∧ c = b.sendStop) := by
  cases h with
  | waiting hu hrequest hb hold =>
    left
    by_cases hes : es = [.start]
    · obtain ⟨hstart, hc⟩ := hmove.sends_start hb hes
      have hu' : u = g + 1 := hu.resolve_left fun e => by simp [hrequest e] at hstart
      exact .started (by omega) (fun e => absurd hu' e) hc hold (by rw [hes])
    · obtain ⟨hc, hno, hquiet⟩ := hmove.of_unstarted hb hes
      exact .waiting hu (fun e => hmove.cr1_clear (hrequest e)) hc (hold.append hno hquiet)
  | started hu hseen hb hold hevs =>
    obtain ⟨hstop, -, hc⟩ := hmove.of_startSent hb
    exact .inr ⟨hu, hb, hstop, hc⟩

/-- GEN_START requests a START, or disables a controller that is not enabled. -/
theorem HeadPhase.genStart (h : HeadPhase quiet g g b evs) (v : Half) :
    HeadPhase quiet g (g + 1) { b with cr1 := v } evs ∧ HeadPhase quiet g (g + 1) (disabledBc b v) evs := by
  cases h with
  | waiting hu hrequest hb hold =>
    obtain ⟨hmode, hsb, hpending, hquiet⟩ := hb
    refine ⟨.waiting (.inr rfl) (by omega) ⟨hmode, hsb, hpending, hquiet⟩ hold,
      .waiting (.inr rfl) (by omega) ⟨by simp [disabledBc], ?_, by simp [disabledBc], fun _ => rfl⟩ hold⟩
    exact flag_zero _
  | started hu => omega

/-- POLL_SB completes on the SB of the command's own START. -/
theorem HeadPhase.sbSeen (h : HeadPhase quiet g (g + 1) b evs) (hsb : flag b.sr1 sr1SB = true)
    (hseen : b.sr1SeenSB = true) : HeadPhase quiet g (g + 2) b evs := by
  cases h with
  | waiting _ _ hb => simp [hb.sb] at hsb
  | started _ _ hb hold hevs => exact .started (by omega) (fun _ => hseen) hb hold hevs

theorem HeadPhase.masterBusy (h : HeadPhase quiet g (g + 2) b evs) : HeadPhase quiet g (g + 3) b evs := by
  cases h with
  | waiting hu => omega
  | started _ hseen hb hold hevs => exact .started (by omega) (fun _ => hseen (by omega)) hb hold hevs

/-- TX_ADDR takes the address path of rule R39. -/
theorem HeadPhase.addressed {v : Byte} (h : HeadPhase quiet g (g + 3) b evs) (hdr : DrWrite v b c) :
    ∃ old, OldEvents quiet old ∧ evs = old ++ [.start] ∧ c.Addressing v ∧ c.cr1 = b.cr1 ∧
      flag c.sr1 sr1RXNE = flag b.sr1 sr1RXNE := by
  cases h with
  | waiting hu => omega
  | @started old _ hseen hb hold hevs =>
    have hc := hdr.1 ⟨hb.sb, hseen (by omega)⟩
    have hmask (k : Nat) (hk : flag 0xFFFE#16 k = true) : flag c.sr1 k = flag b.sr1 k := by
      rw [hc]
      exact (flag_and _ _ _).trans (by rw [hk, Bool.and_true])
    refine ⟨old, hold, hevs, ⟨⟨?_, ?_, ?_⟩, ?_, ?_, ?_, ?_, ?_⟩, ?_, hmask _ rfl⟩
    · rw [hc]; exact hb.pe
    · rw [hc]; exact hb.start
    · rw [hc]; exact (flag_and _ _ _).trans (Bool.and_false _)
    · rw [hc]
    · rw [hc]; rfl
    · exact (hmask _ rfl).trans hb.txe
    · exact (hmask _ rfl).trans hb.btf
    · rw [hc]; exact hb.pending
    · rw [hc]

/-- A byte that a block off the bus writes to DR is stored only. -/
theorem Bc.OffBus.drWrite {v : Byte} (hb : b.OffBus) (hdr : DrWrite v b c) : c = { b with dr := v.setWidth 16 } := by
  refine hdr.2.2 (fun h => ?_) fun h => ?_
  · simp [hb.sb] at h
  · rcases hb.mode with e | e | e <;> simp [e] at h

theorem Bc.OffBus.addressed {v : Byte} (hb : b.OffBus) (hdr : DrWrite v b c) : c.OffBus ∧ c.sr1 = b.sr1 := by
  rw [hb.drWrite hdr]
  exact ⟨⟨hb.mode, hb.start, hb.sb⟩, rfl⟩

end

/-! ### The MTE's part in a transfer -/

/-- `P` holds of where the MTE stands, of how many bytes it has completed and of the controller. -/
def At (P : Nat → Nat → Bc → Prop) (s : State) : Prop := P s.m.upc.toNat s.m.idx.toNat s.b

section
variable {P : Nat → Nat → Bc → Prop} {s t : State} {i : Instr}

/-- A completed micro-operation goes straight on. -/
theorem at_next {a : MicroAddr} {u : Nat} (hu : s.m.upc.toNat = u) (hrom : u ≤ 35)
    (h : P (u + 1) s.m.idx.toNat s.b) : At P (applySeq .next a s) := by
  have hnext : (applySeq .next a s).m.upc.toNat = u + 1 := by
    rw [← hu] at hrom ⊢
    exact upc_succ hrom
  unfold At
  rw [hnext, applySeq_b, applySeq_m_idx]
  exact h

/-- A CR1 write is refused or faults, and moves nothing; or it is done with PE = 1; or it disables the controller. -/
theorem WritesCr1.ends {v : Half} {after : State → State} (hi : WritesCr1 s i v after) (h : exec i s = .next t) :
    (t.m = s.m ∧ t.b = s.b) ∨
      (flag v cr1PE = true ∧ t = after (s.withB { s.b with cr1 := v &&& cr1Bits })) ∨
      (flag v cr1PE = false ∧ s.b.bmode.isMaster = false ∧ t = after (s.withB (disabledBc s.b (v &&& 0xB8FB#16)))) := by
  rw [hi.exec_eq] at h
  rcases writeCr1_cases v s with ⟨_, e⟩ | ⟨_, h0, e⟩ | ⟨_, _, _, e⟩ | ⟨_, h0, hm, e⟩ <;> rw [e] at h <;> cases h
  · exact .inl ⟨rfl, rfl⟩
  · exact .inr (.inl ⟨h0, rfl⟩)
  · exact .inl ⟨rfl, rfl⟩
  · exact .inr (.inr ⟨h0, hm, by rw [← Bc.disable_eq_disabledBc]⟩)

/-- What a CR1 write does to where the command stands. -/
theorem WritesCr1.at {v : Half} {after : State → State} (hi : WritesCr1 s i v after) (h : exec i s = .next t)
    (hs : At P s) (henabled : flag v cr1PE = true → At P (after (s.withB { s.b with cr1 := v &&& cr1Bits })))
    (hdisabled : flag v cr1PE = false → s.b.bmode.isMaster = false →
      At P (after (s.withB (disabledBc s.b (v &&& 0xB8FB#16))))) : At P t := by
  rcases hi.ends h with ⟨hm, hb⟩ | ⟨h0, rfl⟩ | ⟨h0, hmaster, rfl⟩
  · unfold At
    rw [hm, hb]
    exact hs
  · exact henabled h0
  · exact hdisabled h0 hmaster

/-- What one iteration of a poll does to where the command stands: it goes to ABORT, waits, or completes. -/
theorem PollOp.at {row : PollRow} {act : State → State} {q : Seq} {a : MicroAddr} (hi : PollOp i row act q a)
    (h : exec i s = .next t)
    (hpolled : ∀ b, (pollReads row s).2 = s.withB b → PollFlags s.b b → P s.m.upc.toNat s.m.idx.toNat b)
    (habort : ∀ n b, P 35 n b)
    (hdone : ∀ b, (pollReads row s).2 = s.withB b → row.cond.holds (pollReads row s).1 = true → PollFlags s.b b →
      P s.m.upc.toNat s.m.idx.toNat b → At P (applySeq q a (act (s.withB b)))) : At P t := by
  rw [hi.exec_eq] at h
  cases h
  obtain ⟨b, hreads, ⟨hflags, -⟩, hend⟩ := pollOnce_ends row act q a s
  rcases hend with ⟨e, c, -, h⟩ | ⟨c, h⟩ | ⟨hc, h⟩ <;> rw [h]
  · exact habort _ _
  · exact hpolled b hreads hflags
  · exact hdone b hreads hc hflags (hpolled b hreads hflags)

/-- A poll that goes straight on, and counts no byte. -/
theorem PollOp.at_next {row : PollRow} {act : State → State} {a : MicroAddr} {u : Nat} (hi : PollOp i row act .next a)
    (hcount : i ≠ .pollBtf .next a) (hu : s.m.upc.toNat = u) (hrom : u ≤ 35) (h : exec i s = .next t)
    (hpolled : ∀ b, (pollReads row s).2 = s.withB b → PollFlags s.b b → P s.m.upc.toNat s.m.idx.toNat b)
    (habort : ∀ n b, P 35 n b)
    (hdone : ∀ b, (pollReads row s).2 = s.withB b → row.cond.holds (pollReads row s).1 = true → PollFlags s.b b →
      P u s.m.idx.toNat b → P (u + 1) s.m.idx.toNat b) : At P t := by
  refine hi.at h hpolled habort fun b hreads hc hflags hp => ?_
  have hnext := hdone b hreads hc hflags (hu ▸ hp)
  cases hi with
  | pollBtf => exact absurd rfl hcount
  | _ => exact Sys2Proof.Machine.at_next hu hrom hnext

/-- A read of SR2 that is no poll. -/
theorem readSr2_polled (s : State) : ∃ c, (readSr2 s).2 = s.withB c ∧ PollFlags s.b c :=
  readSr2_withMarks (s := s) (sb := s.b.sr1SeenSB) (addr := s.b.sr1SeenADDR) (.inl rfl) (.inl rfl)

/-- A poll that does not read SR2 leaves SR1. -/
theorem pollReads_sr1_kept {row : PollRow} {b : Bc} (hsr2 : row.readsSr2 = .never) (h : (pollReads row s).2 = s.withB b) :
    b.sr1 = s.b.sr1 := by
  have hb : b = (pollReads row s).2.b := by rw [h]; rfl
  rw [hb, pollReads, hsr2]
  cases row.readsSr1 <;> rfl

/-- A POLL_SB that completes has seen SB. -/
theorem pollReads_rowSb_seen {b : Bc} (hsb : rowSb.cond.holds (pollReads rowSb s).1 = true)
    (h : (pollReads rowSb s).2 = s.withB b) : b.sr1SeenSB = true := by
  have hb : b.sr1SeenSB = (s.b.sr1SeenSB || flag s.b.sr1 sr1SB) := congrArg (fun u => u.b.sr1SeenSB) h.symm
  rw [hb, show flag s.b.sr1 sr1SB = true from hsb, Bool.or_true]

/-- ABORT stays where it is until the command ends. -/
theorem abort_stays {q : Seq} {a : MicroAddr} (hq : q = .endCmd) (h : exec (.abort q a) s = .next t)
    (hbusy : t.m.busy = true) : t.m.upc = s.m.upc := by
  subst hq
  have h := exec_microNext rfl h
  cases h with
  | refused | faulted | abortWaits => rfl
  | cr1Written hi => cases hi; rfl
  | abortEnds => simp at hbusy
  | pollRaises _ hi | pollCompletes hi | pollWaits hi => cases hi

end

/-! ### The run of one command -/

/-- `RunStep s t`: a step may take `s`, in which a command runs, to `t`. -/
inductive RunStep (s : State) : State → Prop where
  | keeps {t} (hm : t.m = s.m) (hb : t.b = s.b) (hbuf : t.buf = s.buf) (htrace : t.trace = s.trace) (hcfg : t.cfg = s.cfg) :
      RunStep s t
  | micro {t i} (hat : RomAt s.m.upc.toNat i) (h : exec i s = .next t) : RunStep s t
  | bus {es c} (h : BusMove (windowHolds s) s.b es c) : RunStep s { s with b := c, trace := s.trace ++ es }

section
variable {s0 s t : State} {k : Nat}

theorem runTurn_runStep {τ : Turn} (hrom : s.rom = romWords) (hbusy : s.m.busy = true) (h : runTurn τ s = .next t) :
    RunStep s t := by
  by_cases hhost : τ = .host
  · subst hhost
    obtain ⟨hb, htrace, -, hcfg, hrun⟩ := (hostTurn_hostNext h).frame
    exact .keeps (hrun hbusy).1 hb (hrun hbusy).2 htrace hcfg
  · by_cases hmte : τ = .mte
    · subst hmte
      rcases mteTurn_next h with ⟨hidle, -⟩ | ⟨-, w, hw, ⟨_, _, rfl⟩ | ⟨i, hi, h⟩⟩
      · simp [hidle] at hbusy
      · exact .keeps rfl rfl rfl rfl rfl
      · exact .micro (romAt_of_fetch hrom hw hi) h
    · rw [runTurn_bus τ s hhost hmte] at h
      cases h
      cases hb : busStep τ s with
      | none => exact .keeps rfl rfl rfl rfl rfl
      | some u =>
        obtain ⟨es, c, hmove, rfl⟩ := busStep_busMove hb
        exact .bus hmove

/-- Everything a step can do while a command runs. -/
theorem step_runStep (hinv : MteInv s) (hbusy : s.m.busy = true) (h : step s = .next t) :
    ∃ q n, RunStep { s with schedule := q, turnsDrawn := n } t := by
  obtain ⟨q, n, e⟩ := nextTurn_shape s
  obtain ⟨_, _, hrun⟩ := step_next h
  rw [e] at hrun
  exact ⟨q, n, runTurn_runStep (mteInv_rom (s := s) hinv) hbusy hrun⟩

theorem busyRun_accepted (h : BusyRun s0 k s) : s0.m.busy = true := by
  induction h with
  | here hbusy => exact hbusy
  | onward _ _ _ ih => exact ih

/-- What holds when a command is accepted, whatever turns are to come, and is kept by every step that leaves the command
running, holds all along its run. -/
theorem busyRun_induct {P : State → Prop} (h : BusyRun s0 k s) (hinv : MteInv s0) (h0 : P s0)
    (hschedule : ∀ s q n, P s → P { s with schedule := q, turnsDrawn := n })
    (hstep : ∀ s t, MteInv s → s.m.busy = true → t.m.busy = true → P s → RunStep s t → P t) :
    MteInv s ∧ s.m.busy = true ∧ P s := by
  induction h with
  | here hbusy => exact ⟨hinv, hbusy, h0⟩
  | @onward k s t _ hs hb ih =>
    obtain ⟨hinv', hbusy, hp⟩ := ih
    obtain ⟨q, n, hrun⟩ := step_runStep hinv' hbusy hs
    refine ⟨?_, hb, ?_⟩
    · obtain ⟨q, n, hnext⟩ := step_stepNext hs
      exact mteInv_of_stepNext (s := { s with schedule := q, turnsDrawn := n }) hinv' hnext
    · exact hstep { s with schedule := q, turnsDrawn := n } t hinv' hbusy hb (hschedule s q n hp) hrun

/-- A command ends with OK by DONE only, which changes the MTE only (rule R135). -/
theorem MicroNext.ends_ok {i : Instr} (h : MicroNext s i t) (hat : RomAt s.m.upc.toNat i) (hbusy : s.m.busy = true)
    (hidle : t.m.busy = false) (hok : t.m.result = .ok) :
    (s.m.upc.toNat = 8 ∨ s.m.upc.toNat = 20 ∨ s.m.upc.toNat = 34) ∧ t.trace = s.trace ∧ t.buf = s.buf := by
  cases h with
  | done q a =>
    obtain ⟨-, hu⟩ := hat
    exact ⟨hu, by simp, by simp⟩
  | tcuRejects => cases hok
  | abortEnds =>
    rw [applySeq_m_result, abortFinish_m_result] at hok
    cases he : s.m.err <;> simp [he, ErrKind.result] at hok
  | refused | faulted | unwrittenByte | abortWaits | pollRaises | pollWaits => simp [hbusy] at hidle
  | cr1Written hi =>
    cases hi with
    | abort => simp [hbusy] at hidle
    | _ => obtain ⟨rfl, -⟩ := hat; simp [hbusy, disarm] at hidle
  | pollCompletes hi =>
    cases hi <;> obtain ⟨rfl, -⟩ := hat <;> simp [hbusy, noAction, arm, countByte] at hidle
  | tcuAccepts | wrFreq | wrCcr | wrTrise | txAddr | txData =>
    obtain ⟨rfl, -⟩ := hat
    simp [hbusy, latchTcu] at hidle
  | clrAddr | rxData =>
    obtain ⟨rfl, -⟩ | ⟨rfl, -⟩ := hat <;> simp [hbusy, countByte] at hidle

/-- The step by which a command ends with OK. -/
theorem step_ends_ok (hinv : MteInv s) (hbusy : s.m.busy = true) (h : step s = .next t) (hidle : t.m.busy = false)
    (hok : t.m.result = .ok) :
    (s.m.upc.toNat = 8 ∨ s.m.upc.toNat = 20 ∨ s.m.upc.toNat = 34) ∧ t.trace = s.trace ∧ t.buf = s.buf := by
  obtain ⟨q, n, h⟩ := step_runStep hinv hbusy h
  cases h with
  | keeps hm => simp [hm, hbusy] at hidle
  | bus => simp [hbusy] at hidle
  | micro hat h => exact (exec_microNext (isMicro_of_romAt hat) h).ends_ok hat hbusy hidle hok

end

end Sys2Proof.Machine

/-! The run of a WRITE: where the command stands, what the controller does for it and what the bus has shown since its
acceptance (rules R130, R153, R237). -/

namespace Sys2Proof.Machine

open Sys2Proof.Safety

/-! ### The bytes of BUF that a transfer has completed -/

theorem bufHolds_nil (mem : Memory) : BufHolds mem 0 [] := ⟨rfl, fun _ h => absurd h (Nat.not_lt_zero _)⟩

theorem bufHolds_append {mem : Memory} {n : Nat} {bytes : List Byte} {v : Byte} (h : BufHolds mem n bytes)
    (hv : mem.read n = some v) : BufHolds mem (n + 1) (bytes ++ [v]) := by
  obtain ⟨hlen, hread⟩ := h
  refine ⟨by simp [hlen], fun j hj => ?_⟩
  rcases Nat.lt_succ_iff_lt_or_eq.1 hj with hj | rfl
  · rw [List.getElem?_append_left (by omega), hread j hj]
  · rw [hv, ← hlen, List.getElem?_concat_length]

/-- The direction is bit 0 of an address byte (rule R59). -/
theorem getLsbD_zero_append (addr : BitVec 7) (d : BitVec 1) : (addr ++ d).getLsbD 0 = d.getLsbD 0 := by
  rw [BitVec.getLsbD_append]
  rfl

/-- The events of a transfer up to the last of the bytes that were acknowledged. -/
def ackedTrace (address : Byte) (bytes : List Byte) : List Event :=
  [.start, .addr address, .ack] ++ (bytes.map fun v => [Event.data v, .ack]).flatten

theorem ackedTrace_append (address : Byte) (bytes : List Byte) (v : Byte) :
    ackedTrace address (bytes ++ [v]) = ackedTrace address bytes ++ [.data v, .ack] := by
  simp [ackedTrace]

/-! ### Where a WRITE stands -/

/-- A WRITE to `addr` from the BUF `mem` is at `u` with `i` bytes completed; `evs` are the events since its acceptance,
which begin with those of an old transaction. -/
inductive WritePhase (quiet : Prop) (addr : BitVec 7) (mem : Memory) (evs : List Event) (u i : Nat) (b : Bc) : Prop where
  | head (hi : i = 0) (h : HeadPhase quiet 9 u b evs)
  | addressing {old : List Event} (hu : 13 ≤ u ∧ u ≤ 15) (hi : i = 0) (hb : b.Addressing (addr ++ 0#1))
      (hold : OldEvents quiet old) (hevs : evs = old ++ [.start])
  | sending {old : List Event} {bytes : List Byte} (hu : 13 ≤ u ∧ u ≤ 19) (hb : b.Engaged) (hmode : b.bmode = .mTx)
      (hpending : b.txPending = false) (htxe : u = 16 → flag b.sr1 sr1TXE = true)
      (hstop : u = 19 → flag b.cr1 cr1STOP = true) (hbytes : BufHolds mem (if u = 17 then i + 1 else i) bytes)
      (hold : OldEvents quiet old) (hevs : evs = old ++ ackedTrace (addr ++ 0#1) bytes)
  | pending {old : List Event} {bytes : List Byte} {v : Byte} (hu : u = 17) (hb : b.Engaged) (hmode : b.bmode = .mTx)
      (hpending : b.txPending = true) (hbtf : flag b.sr1 sr1BTF = false) (hdr : b.dr = zext16 v)
      (hv : mem.read i = some v) (hbytes : BufHolds mem i bytes)
      (hold : OldEvents quiet old) (hevs : evs = old ++ ackedTrace (addr ++ 0#1) bytes)
  | offBus (hu : 10 ≤ u ∧ u ≤ 17) (hb : b.OffBus) (htxe : u ≤ 15 → flag b.sr1 sr1TXE = false)
      (hbtf : flag b.sr1 sr1BTF = false)
  | finished {old : List Event} {bytes : List Byte} (hu : 18 ≤ u ∧ u ≤ 20) (hb : b.Released)
      (hbytes : BufHolds mem i bytes) (hold : OldEvents quiet old) (hevs : evs = old ++ writeTrace addr bytes)
  | aborting (hu : u = 35)

section
variable {quiet : Prop} {addr : BitVec 7} {mem : Memory} {evs es : List Event} {u i : Nat} {b c : Bc}

theorem WritePhase.place (h : WritePhase quiet addr mem evs u i b) : (9 ≤ u ∧ u ≤ 20) ∨ u = 35 := by
  cases h with
  | head _ h => have := h.place; omega
  | _ => omega

/-- The reads of a poll leave a WRITE where it stands. -/
theorem WritePhase.polled (h : WritePhase quiet addr mem evs u i b) (hflags : PollFlags b c) :
    WritePhase quiet addr mem evs u i c := by
  obtain ⟨hcr1, hmode', hdr', hpending'⟩ := pollFlags_kept hflags
  have hbtf' : flag c.sr1 sr1BTF = flag b.sr1 sr1BTF := pollFlags_flag hflags (by decide) (by decide) (by decide)
  cases h with
  | head hi h => exact .head hi (h.polled hflags)
  | addressing hu hi hb hold hevs => exact .addressing hu hi (hb.polled hflags) hold hevs
  | sending hu hb hmode hpending htxe hstop hbytes hold hevs =>
    exact .sending hu (hb.polled hflags) (hmode'.trans hmode) (hpending'.trans hpending)
      (fun e => pollFlags_txe hflags (htxe e)) (fun e => by rw [hcr1, hstop e]) hbytes hold hevs
  | pending hu hb hmode hpending hbtf hdr hv hbytes hold hevs =>
    exact .pending hu (hb.polled hflags) (hmode'.trans hmode) (hpending'.trans hpending) (hbtf'.trans hbtf)
      (hdr'.trans hdr) hv hbytes hold hevs
  | offBus hu hb htxe hbtf =>
    have htx : b.bmode ≠ .mTx := by rcases hb.mode with e | e | e <;> rw [e] <;> decide
    exact .offBus hu (hb.polled hflags) (fun e => (pollFlags_txe_kept hflags htx).trans (htxe e)) (hbtf'.trans hbtf)
  | finished hu hb hbytes hold hevs => exact .finished hu (hb.polled hflags) hbytes hold hevs
  | aborting hu => exact .aborting hu

/-- The bus takes a WRITE on, or off the bus. -/
theorem WritePhase.bus {held : Bool} (h : WritePhase quiet addr mem evs u i b) (hmove : BusMove held b es c) :
    WritePhase quiet addr mem (evs ++ es) u i c := by
  cases h with
  | head hi h =>
    rcases h.bus hmove with h | ⟨hu, hb, -, rfl⟩
    · exact .head hi h
    · exact .offBus (by omega) (Bc.offBus_sendStop hb.start) (fun _ => by simp [Bc.flag_sendStop_sr1])
        (by simp [Bc.flag_sendStop_sr1])
  | addressing hu hi hb hold hevs =>
    rcases hmove.of_addressing hb with ⟨rfl, hc, hmode, hpending, -, -⟩ | ⟨hc, hsr1⟩
    · refine .sending (bytes := []) (by omega) hc ?_ hpending (by omega) (by omega) ?_ hold ?_
      · rw [hmode, getLsbD_zero_append]
        rfl
      · rw [if_neg (by omega), hi]
        exact bufHolds_nil mem
      · simp [hevs, ackedTrace]
    · exact .offBus (by omega) hc (fun _ => (hsr1 _ (by decide)).trans hb.txe) ((hsr1 _ (by decide)).trans hb.btf)
  | sending hu hb hmode hpending _ _ hbytes hold hevs =>
    obtain ⟨rfl, rfl⟩ := hmove.of_transmitter hmode hpending
    by_cases hlast : 18 ≤ u
    · rw [if_neg (by omega)] at hbytes
      exact .finished (by omega) (Bc.released_sendStop hb.start) hbytes hold (by rw [hevs]; simp [ackedTrace, writeTrace])
    · exact .offBus (by omega) (Bc.offBus_sendStop hb.start) (fun _ => by simp [Bc.flag_sendStop_sr1])
        (by simp [Bc.flag_sendStop_sr1])
  | @pending old bytes v hu hb hmode hpending hbtf hdr hv hbytes hold hevs =>
    rcases hmove.of_pending hb hmode hpending with ⟨rfl, hc, hmode, hpending⟩ | ⟨hc, hbtf'⟩
    · refine .sending (bytes := bytes ++ [v]) (by omega) hc hmode hpending (by omega) (by omega) ?_ hold ?_
      · rw [if_pos hu]
        exact bufHolds_append hbytes hv
      · rw [hevs, ackedTrace_append, hdr, lowByte_zext16, List.append_assoc]
    · exact .offBus (by omega) hc (by omega) (hbtf'.trans hbtf)
  | offBus hu hb htxe hbtf =>
    obtain ⟨hc, hfall⟩ := hmove.of_offBus hb
    exact .offBus hu hc (fun e => hfall _ (htxe e)) (hfall _ hbtf)
  | finished hu hb hbytes hold hevs =>
    obtain ⟨rfl, hc, -, -⟩ := hmove.of_released hb
    exact .finished hu hc hbytes hold (by rw [hevs, List.append_nil])
  | aborting hu => exact .aborting hu

/-! ### The micro-operations of a WRITE (rules R137 to R147) -/

theorem WritePhase.genStart (h : WritePhase quiet addr mem evs 9 i b) (v : Half) :
    WritePhase quiet addr mem evs 10 i { b with cr1 := v } ∧ WritePhase quiet addr mem evs 10 i (disabledBc b v) := by
  cases h with
  | head hi h => exact ⟨.head hi (h.genStart v).1, .head hi (h.genStart v).2⟩
  | _ => omega

theorem WritePhase.sbSeen (h : WritePhase quiet addr mem evs 10 i b) (hsb : flag b.sr1 sr1SB = true)
    (hseen : b.sr1SeenSB = true) : WritePhase quiet addr mem evs 11 i b := by
  cases h with
  | head hi h => exact .head hi (h.sbSeen hsb hseen)
  | offBus _ hb => simp [hb.sb] at hsb
  | _ => omega

theorem WritePhase.masterBusy (h : WritePhase quiet addr mem evs 11 i b) : WritePhase quiet addr mem evs 12 i b := by
  cases h with
  | head hi h => exact .head hi h.masterBusy
  | offBus _ hb htxe hbtf => exact .offBus (by omega) hb (fun _ => htxe (by omega)) hbtf
  | _ => omega

theorem WritePhase.addressed (h : WritePhase quiet addr mem evs 12 i b) (hdr : DrWrite (addr ++ 0#1) b c) :
    WritePhase quiet addr mem evs 13 i c := by
  cases h with
  | head hi h =>
    obtain ⟨old, hold, hevs, hc, -, -⟩ := h.addressed hdr
    exact .addressing (by omega) hi hc hold hevs
  | offBus _ hb htxe hbtf =>
    obtain ⟨hc, hsr1⟩ := hb.addressed hdr
    exact .offBus (by omega) hc (fun _ => by rw [hsr1, htxe (by omega)]) (by rw [hsr1, hbtf])
  | _ => omega

/-- POLL_ADDR and CLR_ADDR move a WRITE on, whatever the slave has answered. -/
theorem WritePhase.addrPassed (h : WritePhase quiet addr mem evs u i b) (hu : u = 13 ∨ u = 14) :
    WritePhase quiet addr mem evs (u + 1) i b := by
  cases h with
  | head _ h => have := h.place; omega
  | addressing _ hi hb hold hevs => exact .addressing (by omega) hi hb hold hevs
  | sending _ hb hmode hpending _ _ hbytes hold hevs =>
    refine .sending (by omega) hb hmode hpending (by omega) (by omega) ?_ hold hevs
    rw [if_neg (by omega)] at hbytes ⊢
    exact hbytes
  | offBus _ hb htxe hbtf => exact .offBus (by omega) hb (fun _ => htxe (by omega)) hbtf
  | _ => omega

/-- TXE is 1 only while the block can send a byte. -/
theorem WritePhase.txeSeen (h : WritePhase quiet addr mem evs 15 i b) (htxe : flag b.sr1 sr1TXE = true) :
    WritePhase quiet addr mem evs 16 i b := by
  cases h with
  | head _ h => have := h.place; omega
  | addressing _ _ hb => simp [hb.txe] at htxe
  | sending _ hb hmode hpending _ _ hbytes hold hevs =>
    exact .sending (by omega) hb hmode hpending (fun _ => htxe) (by omega) hbytes hold hevs
  | offBus _ _ htxe' => simp [htxe' (by omega)] at htxe
  | _ => omega

/-- TX_DATA hands the next byte to the transmitter. -/
theorem WritePhase.dataWritten {v : Byte} (h : WritePhase quiet addr mem evs 16 i b) (hv : mem.read i = some v)
    (hdr : DrWrite v b c) : WritePhase quiet addr mem evs 17 i c := by
  cases h with
  | head _ h => have := h.place; omega
  | sending _ hb hmode _ htxe _ hbytes hold hevs =>
    rw [hdr.2.1 (fun h => by simp [hb.sb] at h) ⟨hmode, htxe rfl⟩]
    refine .pending rfl ⟨hb.pe, hb.start, ?_⟩ hmode rfl ?_ rfl hv hbytes hold hevs
    · exact (flag_and _ _ _).trans (by rw [hb.sb, Bool.false_and])
    · exact (flag_and _ _ _).trans (Bool.and_false _)
  | offBus _ hb _ hbtf =>
    obtain ⟨hc, hsr1⟩ := hb.addressed hdr
    exact .offBus (by omega) hc (by omega) (by rw [hsr1, hbtf])
  | _ => omega

/-- BTF is 1 only when the byte has been acknowledged. -/
theorem WritePhase.btfSeen (h : WritePhase quiet addr mem evs 17 i b) (hbtf : flag b.sr1 sr1BTF = true)
    (hu : u = 15 ∨ u = 18) : WritePhase quiet addr mem evs u (i + 1) b := by
  cases h with
  | head _ h => have := h.place; omega
  | sending _ hb hmode hpending _ _ hbytes hold hevs =>
    refine .sending (by omega) hb hmode hpending (by omega) (by omega) ?_ hold hevs
    rw [if_neg (by omega)]
    exact hbytes
  | pending _ _ _ _ hbtf' => simp [hbtf'] at hbtf
  | offBus _ _ _ hbtf' => simp [hbtf'] at hbtf
  | _ => omega

/-- GEN_STOP requests the STOP, unless an old one has been sent. -/
theorem WritePhase.genStop (h : WritePhase quiet addr mem evs 18 i b) :
    WritePhase quiet addr mem evs 19 i { b with cr1 := setFlag b.cr1 cr1STOP true &&& cr1Bits } := by
  have hbit (k : Nat) (hk : k ≠ cr1STOP) (h0 : flag cr1Bits k = true) :
      flag (setFlag b.cr1 cr1STOP true &&& cr1Bits) k = flag b.cr1 k := by
    rw [flag_and, h0, Bool.and_true, flag_setFlag_ne _ _ _ _ (by decide) hk]
  cases h with
  | head _ h => have := h.place; omega
  | sending _ hb hmode hpending _ _ hbytes hold hevs =>
    refine .sending (by omega) ⟨?_, ?_, hb.sb⟩ hmode hpending (by omega) (fun _ => ?_) hbytes hold hevs
    · exact (hbit _ (by decide) rfl).trans hb.pe
    · exact (hbit _ (by decide) rfl).trans hb.start
    · rw [flag_and, flag_setFlag_same _ _ _ (by decide)]
      rfl
  | finished _ hb hbytes hold hevs =>
    exact .finished (by omega) ⟨hb.notMaster, (hbit _ (by decide) rfl).trans hb.start⟩ hbytes hold hevs
  | _ => omega

theorem WritePhase.genStop_disabled (h : WritePhase quiet addr mem evs 18 i b) (hmaster : b.bmode.isMaster = false)
    (v : Half) : WritePhase quiet addr mem evs 19 i (disabledBc b (v &&& 0xB8FB#16)) := by
  cases h with
  | head _ h => have := h.place; omega
  | sending _ _ hmode => simp [hmode, BMode.isMaster] at hmaster
  | finished _ _ hbytes hold hevs =>
    exact .finished (by omega) ⟨rfl, (flag_and _ _ _).trans (Bool.and_false _)⟩ hbytes hold hevs
  | _ => omega

/-- Stop-sent means that the STOP of the WRITE is on the bus. -/
theorem WritePhase.stopSeen (h : WritePhase quiet addr mem evs 19 i b) (hstop : flag b.cr1 cr1STOP = false) :
    WritePhase quiet addr mem evs 20 i b := by
  cases h with
  | head _ h => have := h.place; omega
  | sending _ _ _ _ _ hstop' => simp [hstop' rfl] at hstop
  | finished _ hb hbytes hold hevs => exact .finished (by omega) hb hbytes hold hevs
  | _ => omega

end

/-! ### The run of a WRITE -/

section
variable {quiet : Prop} {addr : BitVec 7} {mem : Memory} {evs : List Event} {s t : State} {i : Instr}

/-- A poll of a WRITE but POLL_BTF goes to ABORT, waits, or goes straight on. -/
theorem writePhase_poll {row : PollRow} {act : State → State} {a : MicroAddr} {u : Nat} (hop : PollOp i row act .next a)
    (hcount : i ≠ .pollBtf .next a) (hu : s.m.upc.toNat = u) (hrom : u ≤ 35)
    (hs : At (WritePhase quiet addr mem evs) s) (h : exec i s = .next t)
    (hdone : ∀ b, (pollReads row s).2 = s.withB b → row.cond.holds (pollReads row s).1 = true → PollFlags s.b b →
      WritePhase quiet addr mem evs u s.m.idx.toNat b → WritePhase quiet addr mem evs (u + 1) s.m.idx.toNat b) :
    At (WritePhase quiet addr mem evs) t :=
  hop.at_next hcount hu hrom h (fun _ _ => hs.polled) (fun _ _ => .aborting rfl) hdone

/-- POLL_BTF counts a byte that is acknowledged, and loops while bytes are left. -/
theorem writePhase_pollBtf (hinv : MteInv s) (hbusy : s.m.busy = true) (hu : s.m.upc.toNat = 17)
    (h : exec (.pollBtf .loopw 15#6) s = .next t) (hs : At (WritePhase quiet addr mem evs) s) :
    At (WritePhase quiet addr mem evs) t := by
  refine (PollOp.pollBtf .loopw 15#6).at h (fun _ _ => hs.polled) (fun _ _ => .aborting rfl) fun b _ hc hflags hp => ?_
  have hbtf : flag b.sr1 sr1BTF = true := (pollFlags_flag hflags (by decide) (by decide) (by decide)).trans hc
  have hcount : (s.m.idx + 1).toNat = s.m.idx.toNat + 1 := by
    have hplace := mteInv_place hinv hbusy
    rw [hu, placeAt_write (by decide)] at hplace
    exact idx_succ (by omega)
  have hnext : (s.m.upc + 1).toNat = 18 := by rw [upc_succ (by omega), hu]
  have counted {u : Nat} (hu' : u = 15 ∨ u = 18) : WritePhase quiet addr mem evs u (s.m.idx + 1).toNat b := by
    rw [hcount]
    rw [hu] at hp
    exact hp.btfSeen hbtf hu'
  rw [applySeq_loopw]
  split
  · exact counted (.inl rfl)
  · exact counted (.inr hnext)

theorem writePhase_micro (hinv : MteInv s) (hbusy : s.m.busy = true) (hbusy' : t.m.busy = true)
    (haddr : s.m.addr = addr) (hbuf : s.buf = mem) (hat : RomAt s.m.upc.toNat i)
    (h : exec i s = .next t) (hs : At (WritePhase quiet addr mem evs) s) : At (WritePhase quiet addr mem evs) t := by
  have hplace := hs.place
  have here {u : Nat} (hu : s.m.upc.toNat = u) : WritePhase quiet addr mem evs u s.m.idx.toNat s.b := hu ▸ hs
  cases i with
  | genStart q a =>
    obtain ⟨rfl, hu⟩ := hat
    have hu : s.m.upc.toNat = 9 := by omega
    exact (WritesCr1.genStart .next a).at h hs (fun _ => at_next hu (by decide) ((here hu).genStart _).1)
      fun _ _ => at_next hu (by decide) ((here hu).genStart _).2
  | pollSb q a =>
    obtain ⟨rfl, hu⟩ := hat
    have hu : s.m.upc.toNat = 10 := by omega
    refine writePhase_poll (.pollSb .next a) nofun hu (by decide) hs h fun b hreads hc _ hp => ?_
    refine hp.sbSeen ?_ (pollReads_rowSb_seen hc hreads)
    rw [pollReads_sr1_kept rfl hreads]
    exact hc
  | pollMb q a =>
    obtain ⟨rfl, hu⟩ := hat
    have hu : s.m.upc.toNat = 11 := by omega
    exact writePhase_poll (.pollMb .next a) nofun hu (by decide) hs h fun _ _ _ _ hp => hp.masterBusy
  | txAddr q a =>
    obtain ⟨rfl, hu⟩ := hat
    have hu : s.m.upc.toNat = 12 := by omega
    have hbyte : addressByte s.m = addr ++ 0#1 := by
      have hplace := mteInv_place hinv hbusy
      rw [hu, placeAt_write (by decide)] at hplace
      obtain ⟨-, hdir, -⟩ := hplace
      rw [addressByte, haddr, hdir]
      rfl
    rw [exec_txAddr, hbyte] at h
    cases h
    obtain ⟨c, hdr, e⟩ := writeDr_byte (addr ++ 0#1) s
    rw [e]
    exact at_next hu (by decide) ((here hu).addressed hdr)
  | pollAddr q a =>
    obtain ⟨rfl, hu⟩ := hat
    have hu : s.m.upc.toNat = 13 := by omega
    exact writePhase_poll (.pollAddr .next a) nofun hu (by decide) hs h fun _ _ _ _ hp => hp.addrPassed (.inl rfl)
  | clrAddr q a =>
    obtain ⟨rfl, hu⟩ | ⟨-, -, hu⟩ := hat
    · obtain ⟨c, e, hflags⟩ := readSr2_polled s
      rw [exec_clrAddr, e] at h
      cases h
      exact at_next hu (by decide) (((here hu).polled hflags).addrPassed (.inr rfl))
    · omega
  | pollTxe q a =>
    obtain ⟨rfl, hu⟩ := hat
    exact writePhase_poll (.pollTxe .next a) nofun hu (by decide) hs h fun _ _ hc hflags hp =>
      hp.txeSeen (pollFlags_txe hflags hc)
  | txData q a =>
    obtain ⟨rfl, hu⟩ := hat
    cases hv : s.buf.read s.m.idx.toNat with
    | none =>
      rw [exec_txData_unwritten _ _ _ hv] at h
      cases h
      exact hs
    | some v =>
      rw [exec_txData_written _ _ _ hv] at h
      cases h
      obtain ⟨c, hdr, e⟩ := writeDr_byte v s
      rw [e]
      exact at_next hu (by decide) ((here hu).dataWritten (hbuf ▸ hv) hdr)
  | pollBtf q a =>
    obtain ⟨rfl, rfl, hu⟩ := hat
    exact writePhase_pollBtf hinv hbusy hu h hs
  | genStop q a =>
    obtain ⟨rfl, hu⟩ := hat
    exact (WritesCr1.genStop .next a).at h hs (fun _ => at_next hu (by decide) (here hu).genStop)
      fun _ hmaster => at_next hu (by decide) ((here hu).genStop_disabled hmaster _)
  | pollStop q a =>
    obtain ⟨rfl, hu⟩ := hat
    have hu : s.m.upc.toNat = 19 := by omega
    refine writePhase_poll (.pollStop .next a) nofun hu (by decide) hs h fun b _ hc hflags hp => hp.stopSeen ?_
    rw [(pollFlags_kept hflags).1]
    exact (Bool.not_eq_true' _).mp hc
  | done q a =>
    obtain ⟨rfl, -⟩ := hat
    cases h
    cases hbusy'
  | abort q a =>
    obtain ⟨rfl, hu⟩ := hat
    refine .aborting ?_
    rw [abort_stays rfl h hbusy', hu]
  | init | write | read | badCommand => exact hat.elim
  | _ =>
    dsimp only [RomAt] at hat
    omega

/-- What the run of a WRITE from its acceptance in `s0` keeps. -/
structure WriteRun (s0 s : State) : Prop where
  addr : s.m.addr = s0.m.addr
  nm1 : s.m.nm1 = s0.m.nm1
  buf : s.buf = s0.buf
  phase : ∃ evs, s.trace = s0.trace ++ evs ∧
    At (WritePhase (s0.b.bmode.isMaster = false) s0.m.addr s0.buf evs) s

/-- At the acceptance of a WRITE nothing has been shown yet. -/
theorem writeRun_accepted {s0 : State} (h : AcceptedTransfer s0) (hu : s0.m.upc = 9#6) (hidx : s0.m.idx.toNat = 0) :
    WriteRun s0 s0 := by
  obtain ⟨-, ⟨-, -, -, hpending, hsb⟩, hstart, hmode⟩ := h
  refine ⟨rfl, rfl, rfl, [], by simp, ?_⟩
  have hplace : s0.m.upc.toNat = 9 := by rw [hu]; rfl
  refine .head hidx (.waiting (.inl hplace) (fun _ => hstart) ⟨hmode, ?_, hpending, id⟩ (oldEvents_nil _))
  rw [hsb, decide_eq_false hmode]

theorem WriteRun.step {s0 : State} (hrun : WriteRun s0 s) (hinv : MteInv s) (hbusy : s.m.busy = true)
    (hbusy' : t.m.busy = true) (h : RunStep s t) : WriteRun s0 t := by
  obtain ⟨haddr, hnm1, hbuf, evs, htrace, hphase⟩ := hrun
  cases h with
  | keeps hm hb hbuf' htrace' =>
    refine ⟨by rw [hm, haddr], by rw [hm, hnm1], hbuf'.trans hbuf, evs, htrace'.trans htrace, ?_⟩
    unfold At
    rw [hm, hb]
    exact hphase
  | bus hmove =>
    refine ⟨haddr, hnm1, hbuf, _, ?_, WritePhase.bus hphase hmove⟩
    rw [← List.append_assoc, ← htrace]
  | micro hat h =>
    have hnext := exec_microNext (isMicro_of_romAt hat) h
    obtain ⟨-, haddr', -, hnm1', -⟩ := hnext.operands_frame
    obtain ⟨-, -, htrace', -⟩ := hnext.surroundings_frame
    have hbuf' : t.buf = s.buf := hnext.buf_frame.1 fun q a e => by
      subst e
      have := hphase.place
      dsimp only [RomAt] at hat
      omega
    exact ⟨haddr'.trans haddr, hnm1'.trans hnm1, hbuf'.trans hbuf, evs, htrace'.trans htrace,
      writePhase_micro hinv hbusy hbusy' haddr hbuf hat h hphase⟩

end

/-- A WRITE that returns OK has shown the end of an old transaction, and nothing of one if the block was not master at its
acceptance, and then its own events. -/
theorem write_ok {s0 s t : State} {k : Nat} (hacc : AcceptedTransfer s0) (hu : s0.m.upc = 9#6)
    (hrun : BusyRun s0 k s) (hstep : step s = .next t) (hidle : t.m.busy = false) (hok : t.m.result = .ok) :
    ∃ old bytes, BufHolds s0.buf (s0.m.nm1.toNat + 1) bytes ∧ OldEvents (s0.b.bmode.isMaster = false) old ∧
      t.trace = s0.trace ++ (old ++ writeTrace s0.m.addr bytes) := by
  have hinv0 : MteInv s0 := hacc.1
  have hidx0 : s0.m.idx.toNat = 0 := by
    have hplace := mteInv_place hinv0 (busyRun_accepted hrun)
    rw [hu, placeAt_write (by decide)] at hplace
    obtain ⟨-, -, ⟨-, hidx⟩ | ⟨h15, -⟩ | ⟨h18, -⟩⟩ := hplace
    · exact hidx
    · exact absurd h15 (by decide)
    · exact absurd h18 (by decide)
  obtain ⟨hinv, hbusy, -, hnm1, -, evs, htrace, hphase⟩ := busyRun_induct hrun hinv0 (writeRun_accepted hacc hu hidx0)
    (fun s q n h => ⟨h.addr, h.nm1, h.buf, h.phase⟩) fun s t hinv hbusy hbusy' h => h.step hinv hbusy hbusy'
  obtain ⟨hend, htrace', -⟩ := step_ends_ok hinv hbusy hstep hidle hok
  have hend : s.m.upc.toNat = 20 := by
    have := hphase.place
    omega
  have hidx : s.m.idx.toNat = s0.m.nm1.toNat + 1 := by
    have hplace := mteInv_place hinv hbusy
    rw [hend, placeAt_write (by decide)] at hplace
    rw [← hnm1]
    exact (by omega : s.m.idx.toNat = transferLength s.m)
  unfold At at hphase
  rw [hend, hidx] at hphase
  cases hphase with
  | head _ h => have := h.place; omega
  | finished _ _ hbytes hold hevs => exact ⟨_, _, hbytes, hold, by rw [htrace', htrace, hevs]⟩
  | _ => omega

end Sys2Proof.Machine

/-! ### The statements on a WRITE that returns OK -/

namespace Sys2Proof.Proofs

open Sys2Proof.Machine Sys2Proof.Safety

/-- Settles O58, from the run of a WRITE. -/
theorem writeWithAnOldStopPendingEmitsItsTrace : Obligations.WriteWithAnOldStopPendingEmitsItsTrace := by
  intro s0 s t k hacc hop hu hrun hstep hidle hok
  obtain ⟨old, bytes, hbytes, ⟨hno, -⟩, htrace⟩ := write_ok hacc hu hrun hstep hidle hok
  exact ⟨old, bytes, hbytes, hno, by rw [htrace, List.append_assoc]⟩

/-- Settles O56: a block that is not master shows nothing before its START. -/
theorem writeThatReturnsOkEmitsItsTrace : Obligations.WriteThatReturnsOkEmitsItsTrace := by
  intro s0 s t k ⟨hinv, hbus, hmaster, hstart, _⟩ hop hu hrun hstep hidle hok
  have hmode : s0.b.bmode ≠ .mSb := by
    rintro e
    simp [e, BMode.isMaster] at hmaster
  obtain ⟨old, bytes, hbytes, ⟨-, hquiet⟩, htrace⟩ := write_ok ⟨hinv, hbus, hstart, hmode⟩ hu hrun hstep hidle hok
  exact ⟨bytes, hbytes, by rw [htrace, hquiet hmaster, List.nil_append]⟩

end Sys2Proof.Proofs

/-! The run of a READ: where the command stands, what the controller does for it and what the bus has shown since its
acceptance (rules R131, R151, R152, R236). -/

namespace Sys2Proof.Machine

open Sys2Proof.Safety

/-! ### The trace and the bytes of a READ -/

/-- Every byte of a READ but the last is acknowledged (rule R152). -/
theorem readData_append (bytes : List Byte) (v : Byte) :
    readData (bytes ++ [v]) = (bytes.map fun w => [Event.data w, .ack]).flatten ++ [.data v, .nack] := by
  induction bytes with
  | nil => rfl
  | cons w rest ih =>
    have hcons : readData (w :: (rest ++ [v])) = .data w :: .ack :: readData (rest ++ [v]) := by
      cases rest <;> rfl
    rw [List.cons_append, hcons, ih]
    rfl

theorem readTrace_append (addr : BitVec 7) (bytes : List Byte) (v : Byte) :
    readTrace addr (bytes ++ [v]) = ackedTrace (addr ++ 1#1) bytes ++ [.data v, .nack, .stop] := by
  simp [readTrace, readData_append, ackedTrace]

/-- The byte that RX_DATA stores is the next of the transfer. -/
theorem bufHolds_write {mem : Memory} {n : Nat} {bytes : List Byte} (h : BufHolds mem n bytes) (v : Byte) :
    BufHolds (mem.write n v) (n + 1) (bytes ++ [v]) := by
  refine bufHolds_append ⟨h.1, fun j hj => ?_⟩ (Memory.read_write_same mem n v)
  rw [Memory.read_write_ne _ _ _ _ (by omega), h.2 j hj]

/-! ### Where a READ stands -/

/-- What a READ at `u` requests of the controller, once it is on the bus: it acknowledges, and from NACK_STOP on it does
not, and requests a STOP (rules R136, R150). -/
def ReadRequests (u : Nat) (cr1 : Half) : Prop :=
  (u ≤ 30 → flag cr1 cr1STOP = false ∧ flag cr1 cr1ACK = true) ∧
    (30 < u → flag cr1 cr1STOP = true ∧ flag cr1 cr1ACK = false)

theorem ReadRequests.upTo30 {u w : Nat} {cr1 : Half} (h : ReadRequests u cr1) (hu : u ≤ 30) (hw : w ≤ 30) :
    ReadRequests w cr1 :=
  ⟨fun _ => h.1 hu, fun hlt => absurd hw (by omega)⟩

/-- A READ from `addr` into the BUF `mem` is at `u` with `i` bytes completed; `evs` are the events since its
acceptance. -/
inductive ReadPhase (addr : BitVec 7) (mem : Memory) (evs : List Event) (u i : Nat) (b : Bc) : Prop where
  | entered (hu : u = 21) (hi : i = 0) (hb : b.Unstarted True) (hrequest : flag b.cr1 cr1START = false)
      (hstop : flag b.cr1 cr1STOP = false) (hrxne : flag b.sr1 sr1RXNE = false) (hevs : evs = [])
  | head (hi : i = 0) (h : HeadPhase True 22 u b evs) (hstop : flag b.cr1 cr1STOP = false)
      (hack : flag b.cr1 cr1PE = true → flag b.cr1 cr1ACK = true) (hrxne : flag b.sr1 sr1RXNE = false)
  | addressing (hu : 26 ≤ u ∧ u ≤ 31 ∧ u ≠ 29) (hi : i = 0) (hb : b.Addressing (addr ++ 1#1))
      (hreq : ReadRequests u b.cr1) (hrxne : flag b.sr1 sr1RXNE = false) (hevs : evs = [.start])
  | receiving {bytes : List Byte} (hu : 26 ≤ u ∧ u ≤ 31 ∧ u ≠ 29) (hb : b.Engaged) (hmode : b.bmode = .mRx)
      (hreq : ReadRequests u b.cr1) (hrxne : flag b.sr1 sr1RXNE = false)
      (haddr : u ≤ 27 → flag b.sr1 sr1ADDR = true) (hbytes : BufHolds mem i bytes)
      (hevs : evs = ackedTrace (addr ++ 1#1) bytes)
  | received {bytes : List Byte} {v : Byte} (hu : u = 28 ∨ u = 29) (hb : b.Engaged) (hmode : b.bmode = .mRx)
      (hreq : ReadRequests u b.cr1) (hrxne : flag b.sr1 sr1RXNE = true) (hdr : b.dr = zext16 v)
      (hbytes : BufHolds mem i bytes) (hevs : evs = ackedTrace (addr ++ 1#1) (bytes ++ [v]))
  | closed {bytes : List Byte} {v : Byte} (hu : 31 ≤ u ∧ u ≤ 34) (hb : b.Released)
      (hlast : u ≤ 32 → b.dr = zext16 v ∧ BufHolds mem i bytes) (hstored : 32 < u → BufHolds mem i (bytes ++ [v]))
      (hevs : evs = readTrace addr (bytes ++ [v]))
  | offBus (hu : 23 ≤ u ∧ u ≤ 31 ∧ u ≠ 29) (hb : b.OffBus) (hrxne : flag b.sr1 sr1RXNE = false)
  | aborting (hu : u = 35)

section
variable {addr : BitVec 7} {mem : Memory} {evs es : List Event} {u i : Nat} {b c : Bc}

theorem ReadPhase.place (h : ReadPhase addr mem evs u i b) : (21 ≤ u ∧ u ≤ 34) ∨ u = 35 := by
  cases h with
  | head _ h => have := h.place; omega
  | _ => omega

/-- The reads of a poll leave a READ where it stands, if they leave an ADDR that holds the receive step back. -/
theorem ReadPhase.polled (h : ReadPhase addr mem evs u i b) (hflags : PollFlags b c)
    (hsr1 : u = 26 ∨ u = 27 → flag c.sr1 sr1ADDR = flag b.sr1 sr1ADDR) : ReadPhase addr mem evs u i c := by
  obtain ⟨hcr1, hmode', hdr', -⟩ := pollFlags_kept hflags
  have hrxne' : flag c.sr1 sr1RXNE = flag b.sr1 sr1RXNE := pollFlags_flag hflags (by decide) (by decide) (by decide)
  cases h with
  | entered hu hi hb hrequest hstop hrxne hevs =>
    exact .entered hu hi (hb.polled hflags) (by rw [hcr1, hrequest]) (by rw [hcr1, hstop]) (hrxne'.trans hrxne) hevs
  | head hi h hstop hack hrxne =>
    exact .head hi (h.polled hflags) (by rw [hcr1, hstop]) (by rw [hcr1]; exact hack) (hrxne'.trans hrxne)
  | addressing hu hi hb hreq hrxne hevs =>
    exact .addressing hu hi (hb.polled hflags) (hcr1 ▸ hreq) (hrxne'.trans hrxne) hevs
  | receiving hu hb hmode hreq hrxne haddr hbytes hevs =>
    exact .receiving hu (hb.polled hflags) (hmode'.trans hmode) (hcr1 ▸ hreq) (hrxne'.trans hrxne)
      (fun e => (hsr1 (by omega)).trans (haddr e)) hbytes hevs
  | received hu hb hmode hreq hrxne hdr hbytes hevs =>
    exact .received hu (hb.polled hflags) (hmode'.trans hmode) (hcr1 ▸ hreq) (hrxne'.trans hrxne) (hdr'.trans hdr)
      hbytes hevs
  | closed hu hb hlast hstored hevs =>
    exact .closed hu (hb.polled hflags) (by rw [hdr']; exact hlast) hstored hevs
  | offBus hu hb hrxne => exact .offBus hu (hb.polled hflags) (hrxne'.trans hrxne)
  | aborting hu => exact .aborting hu

/-- The bus takes a READ on, or off the bus; the window holds the receive step back at NACK_STOP. -/
theorem ReadPhase.bus {held : Bool} (h : ReadPhase addr mem evs u i b) (hmove : BusMove held b es c)
    (hheld : u = 30 → held = true) : ReadPhase addr mem (evs ++ es) u i c := by
  cases h with
  | entered hu hi hb hrequest hstop hrxne hevs =>
    have hrx : b.bmode ≠ .mRx := fun e => by simpa [e, BMode.isMaster] using hb.notMaster trivial
    have hes : es ≠ [.start] := fun e => by simp [(hmove.sends_start hb e).1] at hrequest
    obtain ⟨hc, -, hquiet⟩ := hmove.of_unstarted hb hes
    exact .entered hu hi hc (hmove.cr1_clear hrequest) (hmove.cr1_clear hstop) ((hmove.rxne_kept hrx).trans hrxne)
      (by rw [hevs, hquiet trivial]; rfl)
  | head hi h hstop hack hrxne =>
    rcases h.bus hmove with h' | ⟨-, -, hstop', -⟩
    · refine .head hi h' (hmove.cr1_clear hstop) (fun hpe => ?_)
        ((hmove.rxne_kept (h.notReceiver trivial)).trans hrxne)
      rw [hmove.cr1_kept (by decide) (by decide)] at hpe ⊢
      exact hack hpe
    · simp [hstop] at hstop'
  | addressing hu hi hb hreq hrxne hevs =>
    rcases hmove.of_addressing hb with ⟨rfl, hc, hmode, -, hcr1, hsr1⟩ | ⟨hc, hsr1⟩
    · refine .receiving (bytes := []) hu hc ?_ (hcr1 ▸ hreq) ?_ (fun _ => ?_) (hi ▸ bufHolds_nil mem) ?_
      · rw [hmode, getLsbD_zero_append]
        rfl
      · rw [hsr1, flag_setFlag_ne _ _ _ _ (by decide) (by decide), hrxne]
      · rw [hsr1, flag_setFlag_same _ _ _ (by decide)]
      · simp [hevs, ackedTrace]
    · exact .offBus (by omega) hc ((hsr1 _ (by decide)).trans hrxne)
  | @receiving bytes hu hb hmode hreq hrxne haddr hbytes hevs =>
    rcases hmove.of_receiver hmode with ⟨rfl, -, rfl⟩ | ⟨hfree, -, haddr0, d, hd⟩
    · exact .offBus (by omega) (Bc.offBus_sendStop hb.start) (by simp [Bc.flag_sendStop_sr1, hrxne])
    · have hu : u = 28 ∨ u = 31 := by
        have h30 : u ≠ 30 := fun e => by simp [hheld e] at hfree
        have h27 : ¬ u ≤ 27 := fun e => by simp [haddr e] at haddr0
        omega
      rcases hu with rfl | rfl
      · obtain ⟨hstop, hack⟩ := hreq.1 (by decide)
        rcases hd with ⟨hstop', -⟩ | ⟨-, -, rfl, rfl⟩ | ⟨-, hack'⟩
        · simp [hstop] at hstop'
        · refine .received (v := d) (.inl rfl) ⟨hb.pe, hb.start, ?_⟩ hmode hreq ?_ rfl hbytes ?_
          · simp (disch := decide) only [flag_setFlag_ne, hb.sb]
          · simp (disch := decide) only [flag_setFlag_same]
          · rw [hevs, ackedTrace_append]
        · simp [hack] at hack'
      · obtain ⟨hstop, hack⟩ := hreq.2 (by decide)
        rcases hd with ⟨-, rfl, rfl⟩ | ⟨hstop', -⟩ | ⟨hstop', -⟩
        · refine .closed (v := d) (by decide) (Bc.released_sendStop hb.start) (fun _ => ⟨rfl, hbytes⟩) (by omega) ?_
          rw [hevs, readTrace_append, hack]
          rfl
        · simp [hstop] at hstop'
        · simp [hstop] at hstop'
  | received hu hb hmode hreq hrxne =>
    obtain ⟨hstop, -⟩ := hreq.1 (by omega)
    rcases hmove.of_receiver hmode with ⟨-, hstop', -⟩ | ⟨-, hrxne', -⟩
    · simp [hstop] at hstop'
    · simp [hrxne] at hrxne'
  | closed hu hb hlast hstored hevs =>
    obtain ⟨rfl, hc, -, hdr⟩ := hmove.of_released hb
    exact .closed hu hc (by rw [hdr]; exact hlast) hstored (by rw [hevs, List.append_nil])
  | offBus hu hb hrxne =>
    obtain ⟨hc, hfall⟩ := hmove.of_offBus hb
    exact .offBus hu hc (hfall _ hrxne)
  | aborting hu => exact .aborting hu

/-! ### The micro-operations of a READ (rules R136 to R151) -/

/-- ACK_ON, or what it leaves of a controller that is not enabled. -/
theorem ReadPhase.ackOn (h : ReadPhase addr mem evs 21 i b) :
    ReadPhase addr mem evs 22 i { b with cr1 := setFlag b.cr1 cr1ACK true &&& cr1Bits } ∧
      ∀ v, flag v cr1PE = false → ReadPhase addr mem evs 22 i (disabledBc b (v &&& 0xB8FB#16)) := by
  cases h with
  | entered _ hi hb hrequest hstop hrxne hevs =>
    have hbit (k : Nat) (hk : k ≠ cr1ACK) (h0 : flag b.cr1 k = false) :
        flag (setFlag b.cr1 cr1ACK true &&& cr1Bits) k = false := by
      rw [flag_and, flag_setFlag_ne _ _ _ _ (by decide) hk, h0, Bool.false_and]
    obtain ⟨hmode, hsb, hpending, hquiet⟩ := hb
    have hold : OldEvents True evs := hevs ▸ oldEvents_nil _
    refine ⟨.head hi (.waiting (.inl rfl) (fun _ => hbit _ (by decide) hrequest) ⟨hmode, hsb, hpending, hquiet⟩ hold)
      (hbit _ (by decide) hstop) (fun _ => ?_) hrxne, fun v hpe => ?_⟩
    · rw [flag_and, flag_setFlag_same _ _ _ (by decide)]
      rfl
    · refine .head hi (.waiting (.inl rfl) (fun _ => ?_) ⟨by simp [disabledBc], flag_zero _, by simp [disabledBc],
        fun _ => rfl⟩ hold) ?_ (fun h => ?_) (flag_zero _)
      · exact (flag_and _ _ _).trans (Bool.and_false _)
      · exact (flag_and _ _ _).trans (Bool.and_false _)
      · rw [show flag (disabledBc b (v &&& 0xB8FB#16)).cr1 cr1PE = flag (v &&& 0xB8FB#16) cr1PE from rfl, flag_and,
          hpe] at h
        cases h
  | head _ h => have := h.place; omega
  | _ => omega

/-- GEN_START, or what it leaves of a controller that is not enabled. -/
theorem ReadPhase.genStart (h : ReadPhase addr mem evs 22 i b) :
    ReadPhase addr mem evs 23 i { b with cr1 := setFlag b.cr1 cr1START true &&& cr1Bits } ∧
      ∀ v, flag v cr1PE = false → ReadPhase addr mem evs 23 i (disabledBc b (v &&& 0xB8FB#16)) := by
  cases h with
  | head hi h hstop hack hrxne =>
    have hbit (k : Nat) (hk : k ≠ cr1START) :
        flag (setFlag b.cr1 cr1START true &&& cr1Bits) k = (flag b.cr1 k && flag cr1Bits k) := by
      rw [flag_and, flag_setFlag_ne _ _ _ _ (by decide) hk]
    refine ⟨.head hi (h.genStart _).1 ?_ (fun hpe => ?_) hrxne, fun v hpe => ?_⟩
    · exact (hbit _ (by decide)).trans (by rw [hstop, Bool.false_and])
    · have hpe : flag b.cr1 cr1PE = true := by
        rw [hbit _ (by decide), Bool.and_eq_true] at hpe
        exact hpe.1
      exact (hbit _ (by decide)).trans (by rw [hack hpe]; rfl)
    · refine .head hi (h.genStart _).2 ?_ (fun h => ?_) (flag_zero _)
      · exact (flag_and _ _ _).trans (Bool.and_false _)
      · rw [show flag (disabledBc b (v &&& 0xB8FB#16)).cr1 cr1PE = flag (v &&& 0xB8FB#16) cr1PE from rfl, flag_and,
          hpe] at h
        cases h
  | _ => omega

theorem ReadPhase.sbSeen (h : ReadPhase addr mem evs 23 i b) (hsb : flag b.sr1 sr1SB = true)
    (hseen : b.sr1SeenSB = true) : ReadPhase addr mem evs 24 i b := by
  cases h with
  | head hi h hstop hack hrxne => exact .head hi (h.sbSeen hsb hseen) hstop hack hrxne
  | offBus _ hb => simp [hb.sb] at hsb
  | _ => omega

theorem ReadPhase.masterBusy (h : ReadPhase addr mem evs 24 i b) : ReadPhase addr mem evs 25 i b := by
  cases h with
  | head hi h hstop hack hrxne => exact .head hi h.masterBusy hstop hack hrxne
  | offBus _ hb hrxne => exact .offBus (by omega) hb hrxne
  | _ => omega

theorem ReadPhase.addressed (h : ReadPhase addr mem evs 25 i b) (hdr : DrWrite (addr ++ 1#1) b c) :
    ReadPhase addr mem evs 26 i c := by
  cases h with
  | head hi h hstop hack hrxne =>
    obtain ⟨old, ⟨-, hquiet⟩, hevs, hc, hcr1, hrxne'⟩ := h.addressed hdr
    have hpe : flag b.cr1 cr1PE = true := hcr1 ▸ hc.pe
    refine .addressing (by omega) hi hc ⟨fun _ => ?_, by omega⟩ (hrxne'.trans hrxne) (by rw [hevs, hquiet trivial]; rfl)
    rw [hcr1]
    exact ⟨hstop, hack hpe⟩
  | offBus _ hb hrxne =>
    obtain ⟨hc, hsr1⟩ := hb.addressed hdr
    exact .offBus (by omega) hc (by rw [hsr1, hrxne])
  | _ => omega

/-- POLL_ADDR moves a READ on, whatever the slave has answered. -/
theorem ReadPhase.addrSeen (h : ReadPhase addr mem evs 26 i b) : ReadPhase addr mem evs 27 i b := by
  cases h with
  | head _ h => have := h.place; omega
  | addressing _ hi hb hreq hrxne hevs =>
    exact .addressing (by omega) hi hb (hreq.upTo30 (by decide) (by decide)) hrxne hevs
  | receiving _ hb hmode hreq hrxne haddr hbytes hevs =>
    exact .receiving (by omega) hb hmode (hreq.upTo30 (by decide) (by decide)) hrxne (fun _ => haddr (by decide)) hbytes
      hevs
  | offBus _ hb hrxne => exact .offBus (by omega) hb hrxne
  | _ => omega

/-- CLR_ADDR lets the receive step go. -/
theorem ReadPhase.addrCleared (h : ReadPhase addr mem evs 27 i b) (hflags : PollFlags b c) (hu : u = 28 ∨ u = 30) :
    ReadPhase addr mem evs u i c := by
  have moved : ReadPhase addr mem evs u i b := by
    cases h with
    | head _ h => have := h.place; omega
    | addressing _ hi hb hreq hrxne hevs =>
      exact .addressing (by omega) hi hb (hreq.upTo30 (by decide) (by omega)) hrxne hevs
    | receiving _ hb hmode hreq hrxne _ hbytes hevs =>
      exact .receiving (by omega) hb hmode (hreq.upTo30 (by decide) (by omega)) hrxne (by omega) hbytes hevs
    | offBus _ hb hrxne => exact .offBus (by omega) hb hrxne
    | _ => omega
  exact moved.polled hflags (by omega)

/-- RXNE is 1 only when a byte has been received. -/
theorem ReadPhase.rxneSeen (h : ReadPhase addr mem evs u i b) (hu : u = 28 ∨ u = 31)
    (hrxne : flag b.sr1 sr1RXNE = true) : ReadPhase addr mem evs (u + 1) i b := by
  cases h with
  | head _ _ _ _ hrxne' | addressing _ _ _ _ hrxne' | receiving _ _ _ _ hrxne' | offBus _ _ hrxne' =>
    simp [hrxne'] at hrxne
  | received _ hb hmode hreq _ hdr hbytes hevs =>
    exact .received (by omega) hb hmode (hreq.upTo30 (by omega) (by omega)) hrxne hdr hbytes hevs
  | closed _ hb hlast _ hevs => exact .closed (by omega) hb (fun _ => hlast (by omega)) (by omega) hevs
  | _ => omega

/-- RX_DATA in the loop stores the byte and lets the next one come. -/
theorem ReadPhase.stored (h : ReadPhase addr mem evs 29 i b) (hu : u = 28 ∨ u = 30) :
    ReadPhase addr (mem.write i (b.dr.extractLsb' 0 8)) evs u (i + 1) { b with sr1 := b.sr1 &&& 0xFFBB#16 } := by
  cases h with
  | head _ h => have := h.place; omega
  | received _ hb hmode hreq _ hdr hbytes hevs =>
    rw [hdr, extractLsb'_zext16]
    refine .receiving (by omega) ⟨hb.pe, hb.start, ?_⟩ hmode (hreq.upTo30 (by decide) (by omega)) ?_ (by omega)
      (bufHolds_write hbytes _) hevs
    · exact (flag_and _ _ _).trans (by rw [hb.sb, Bool.false_and])
    · exact (flag_and _ _ _).trans (Bool.and_false _)
  | _ => omega

/-- The last RX_DATA stores the byte that was not acknowledged. -/
theorem ReadPhase.storedLast (h : ReadPhase addr mem evs 32 i b) :
    ReadPhase addr (mem.write i (b.dr.extractLsb' 0 8)) evs 33 (i + 1) { b with sr1 := b.sr1 &&& 0xFFBB#16 } := by
  cases h with
  | head _ h => have := h.place; omega
  | closed _ hb hlast _ hevs =>
    obtain ⟨hdr, hbytes⟩ := hlast (by decide)
    rw [hdr, extractLsb'_zext16]
    exact .closed (by omega) ⟨hb.notMaster, hb.start⟩ (by omega) (fun _ => bufHolds_write hbytes _) hevs
  | _ => omega

/-- NACK_STOP, before the last byte. -/
theorem ReadPhase.nackStop (h : ReadPhase addr mem evs 30 i b) :
    ReadPhase addr mem evs 31 i
      { b with cr1 := setFlag (setFlag b.cr1 cr1ACK false) cr1STOP true &&& cr1Bits } := by
  have hbit (k : Nat) (hstop : k ≠ cr1STOP) (hack : k ≠ cr1ACK) (h0 : flag cr1Bits k = true) :
      flag (setFlag (setFlag b.cr1 cr1ACK false) cr1STOP true &&& cr1Bits) k = flag b.cr1 k := by
    rw [flag_and, h0, Bool.and_true, flag_setFlag_ne _ _ _ _ (by decide) hstop,
      flag_setFlag_ne _ _ _ _ (by decide) hack]
  have hreq : ReadRequests 31 (setFlag (setFlag b.cr1 cr1ACK false) cr1STOP true &&& cr1Bits) := by
    refine ⟨by omega, fun _ => ⟨?_, ?_⟩⟩
    · rw [flag_and, flag_setFlag_same _ _ _ (by decide)]
      rfl
    · rw [flag_and, flag_setFlag_ne _ _ _ _ (by decide) (by decide), flag_setFlag_same _ _ _ (by decide)]
      rfl
  have engaged (hb : b.Engaged) :
      Bc.Engaged { b with cr1 := setFlag (setFlag b.cr1 cr1ACK false) cr1STOP true &&& cr1Bits } :=
    ⟨(hbit _ (by decide) (by decide) rfl).trans hb.pe, (hbit _ (by decide) (by decide) rfl).trans hb.start, hb.sb⟩
  cases h with
  | head _ h => have := h.place; omega
  | addressing _ hi hb _ hrxne hevs =>
    exact .addressing (by omega) hi ⟨engaged hb.toEngaged, hb.mode, hb.dr, hb.txe, hb.btf, hb.pending⟩ hreq hrxne hevs
  | receiving _ hb hmode _ hrxne _ hbytes hevs =>
    exact .receiving (by omega) (engaged hb) hmode hreq hrxne (by omega) hbytes hevs
  | offBus _ hb hrxne =>
    exact .offBus (by omega) ⟨hb.mode, (hbit _ (by decide) (by decide) rfl).trans hb.start, hb.sb⟩ hrxne
  | _ => omega

/-- A controller that NACK_STOP disables was off the bus. -/
theorem ReadPhase.nackStop_disabled (h : ReadPhase addr mem evs 30 i b) (hmaster : b.bmode.isMaster = false) (v : Half) :
    ReadPhase addr mem evs 31 i (disabledBc b (v &&& 0xB8FB#16)) := by
  cases h with
  | head _ h => have := h.place; omega
  | addressing _ _ hb => simp [hb.mode, BMode.isMaster] at hmaster
  | receiving _ _ hmode => simp [hmode, BMode.isMaster] at hmaster
  | offBus =>
    exact .offBus (by omega) ⟨.inl rfl, (flag_and _ _ _).trans (Bool.and_false _), flag_zero _⟩ (flag_zero _)
  | _ => omega

theorem ReadPhase.stopSeen (h : ReadPhase addr mem evs 33 i b) : ReadPhase addr mem evs 34 i b := by
  cases h with
  | head _ h => have := h.place; omega
  | closed _ hb _ hstored hevs => exact .closed (by omega) hb (by omega) (fun _ => hstored (by decide)) hevs
  | _ => omega

end

/-! ### The run of a READ -/

section
variable {addr : BitVec 7} {mem : Memory} {evs : List Event} {s t : State} {i : Instr}

/-- A poll of a READ goes to ABORT, waits, or goes straight on. -/
theorem readPhase_poll {row : PollRow} {act : State → State} {a : MicroAddr} {u : Nat} (hop : PollOp i row act .next a)
    (hcount : i ≠ .pollBtf .next a) (hu : s.m.upc.toNat = u) (hrom : u ≤ 35)
    (hsr2 : u = 26 ∨ u = 27 → row.readsSr2 = .never) (hs : At (ReadPhase addr mem evs) s) (h : exec i s = .next t)
    (hdone : ∀ b, (pollReads row s).2 = s.withB b → row.cond.holds (pollReads row s).1 = true → PollFlags s.b b →
      ReadPhase addr mem evs u s.m.idx.toNat b → ReadPhase addr mem evs (u + 1) s.m.idx.toNat b) :
    At (ReadPhase addr mem evs) t := by
  refine hop.at_next hcount hu hrom h (fun b hreads hflags => hs.polled hflags fun haddr => ?_)
    (fun _ _ => .aborting rfl) hdone
  rw [pollReads_sr1_kept (hsr2 (hu ▸ haddr)) hreads]

/-- CLR_ADDR goes to the loop, or to NACK_STOP when one byte is wanted. -/
theorem readPhase_clrAddr (hu : s.m.upc.toNat = 27) (h : exec (.clrAddr .skip1 30#6) s = .next t)
    (hs : At (ReadPhase addr mem evs) s) : At (ReadPhase addr mem evs) t := by
  obtain ⟨c, e, hflags⟩ := readSr2_polled s
  rw [exec_clrAddr, e, applySeq_skip1] at h
  cases h
  unfold At at hs
  rw [hu] at hs
  have hnext : (s.m.upc + 1).toNat = 28 := by rw [upc_succ (by omega), hu]
  split
  · exact hs.addrCleared hflags (.inr rfl)
  · exact hs.addrCleared hflags (.inl hnext)

/-- RX_DATA stores the byte, and loops while more than one is left. -/
theorem readPhase_rxData {q : Seq} {a : MicroAddr} (hinv : MteInv s) (hbusy : s.m.busy = true)
    (hat : RomAt s.m.upc.toNat (.rxData q a)) (h : exec (.rxData q a) s = .next t)
    (hs : At (ReadPhase addr s.buf evs) s) : At (ReadPhase addr t.buf evs) t := by
  have hidx : s.m.idx.toNat < bufDepth := by
    by_contra hidx
    rw [exec_rxData_outside q a s hidx] at h
    cases h
  rw [exec_rxData_inside q a s hidx] at h
  cases h
  rw [applySeq_buf]
  have hplace := mteInv_place hinv hbusy
  unfold At at hs
  rcases hat with ⟨rfl, rfl, hu⟩ | ⟨rfl, hu⟩
  · rw [hu] at hs
    rw [hu, placeAt_read (by decide)] at hplace
    have hcount := idx_succ (m := s.m) (by omega)
    have hnext : (s.m.upc + 1).toNat = 30 := by rw [upc_succ (by omega), hu]
    have stored {u : Nat} (hu' : u = 28 ∨ u = 30) := hcount ▸ hs.stored hu'
    rw [applySeq_loopr]
    split
    · exact stored (.inl rfl)
    · exact stored (.inr hnext)
  · rw [hu] at hs
    rw [hu, placeAt_read (by decide)] at hplace
    have hcount := idx_succ (m := s.m) (by omega)
    exact at_next hu (by decide) (hcount ▸ hs.storedLast)

theorem readPhase_micro (hinv : MteInv s) (hbusy : s.m.busy = true) (hbusy' : t.m.busy = true)
    (haddr : s.m.addr = addr) (hat : RomAt s.m.upc.toNat i) (hrx : ∀ q a, i ≠ .rxData q a)
    (h : exec i s = .next t) (hs : At (ReadPhase addr mem evs) s) : At (ReadPhase addr mem evs) t := by
  have hplace := hs.place
  have here {u : Nat} (hu : s.m.upc.toNat = u) : ReadPhase addr mem evs u s.m.idx.toNat s.b := hu ▸ hs
  cases i with
  | ackOn q a =>
    obtain ⟨rfl, hu⟩ := hat
    have hop := WritesCr1.ackOn (s := s) .next a
    exact hop.at h hs (fun _ => at_next hu (by decide) (here hu).ackOn.1)
      fun hpe _ => at_next hu (by decide) ((here hu).ackOn.2 _ hpe)
  | genStart q a =>
    obtain ⟨rfl, hu⟩ := hat
    have hu : s.m.upc.toNat = 22 := by omega
    have hop := WritesCr1.genStart (s := s) .next a
    exact hop.at h hs (fun _ => at_next hu (by decide) (here hu).genStart.1)
      fun hpe _ => at_next hu (by decide) ((here hu).genStart.2 _ hpe)
  | pollSb q a =>
    obtain ⟨rfl, hu⟩ := hat
    have hu : s.m.upc.toNat = 23 := by omega
    refine readPhase_poll (.pollSb .next a) nofun hu (by decide) (fun _ => rfl) hs h fun b hreads hc _ hp => ?_
    refine hp.sbSeen ?_ (pollReads_rowSb_seen hc hreads)
    rw [pollReads_sr1_kept rfl hreads]
    exact hc
  | pollMb q a =>
    obtain ⟨rfl, hu⟩ := hat
    have hu : s.m.upc.toNat = 24 := by omega
    exact readPhase_poll (.pollMb .next a) nofun hu (by decide) (by omega) hs h fun _ _ _ _ hp => hp.masterBusy
  | txAddr q a =>
    obtain ⟨rfl, hu⟩ := hat
    have hu : s.m.upc.toNat = 25 := by omega
    have hbyte : addressByte s.m = addr ++ 1#1 := by
      have hplace := mteInv_place hinv hbusy
      rw [hu, placeAt_read (by decide)] at hplace
      obtain ⟨-, hdir, -⟩ := hplace
      rw [addressByte, haddr, hdir]
      rfl
    rw [exec_txAddr, hbyte] at h
    cases h
    obtain ⟨c, hdr, e⟩ := writeDr_byte (addr ++ 1#1) s
    rw [e]
    exact at_next hu (by decide) ((here hu).addressed hdr)
  | pollAddr q a =>
    obtain ⟨rfl, hu⟩ := hat
    have hu : s.m.upc.toNat = 26 := by omega
    exact readPhase_poll (.pollAddr .next a) nofun hu (by decide) (fun _ => rfl) hs h fun _ _ _ _ hp => hp.addrSeen
  | clrAddr q a =>
    obtain ⟨-, hu⟩ | ⟨rfl, rfl, hu⟩ := hat
    · omega
    · exact readPhase_clrAddr hu h hs
  | pollRxne q a =>
    obtain ⟨rfl, hu⟩ := hat
    refine readPhase_poll (.pollRxne .next a) nofun rfl (by omega) (by omega) hs h fun b _ hc hflags hp => ?_
    exact hp.rxneSeen hu ((pollFlags_flag hflags (by decide) (by decide) (by decide)).trans hc)
  | rxData q a => exact absurd rfl (hrx q a)
  | nackStop q a =>
    obtain ⟨rfl, hu⟩ := hat
    have hop := WritesCr1.nackStop (s := s) .next a
    exact hop.at h hs (fun _ => at_next hu (by decide) (here hu).nackStop)
      fun _ hmaster => at_next hu (by decide) ((here hu).nackStop_disabled hmaster _)
  | pollStop q a =>
    obtain ⟨rfl, hu⟩ := hat
    have hu : s.m.upc.toNat = 33 := by omega
    exact readPhase_poll (.pollStop .next a) nofun hu (by decide) (fun _ => rfl) hs h fun _ _ _ _ hp => hp.stopSeen
  | done q a =>
    obtain ⟨rfl, -⟩ := hat
    cases h
    cases hbusy'
  | abort q a =>
    obtain ⟨rfl, hu⟩ := hat
    refine .aborting ?_
    rw [abort_stays rfl h hbusy', hu]
  | init | write | read | badCommand => exact hat.elim
  | _ =>
    dsimp only [RomAt] at hat
    omega

/-- What the run of a READ from its acceptance in `s0` keeps. -/
structure ReadRun (s0 s : State) : Prop where
  addr : s.m.addr = s0.m.addr
  nm1 : s.m.nm1 = s0.m.nm1
  window : s.cfg.lastByteWindowMet = true
  phase : ∃ evs, s.trace = s0.trace ++ evs ∧ At (ReadPhase s0.m.addr s.buf evs) s

/-- At the acceptance of a READ nothing has been shown yet. -/
theorem readRun_accepted {s0 : State} (h : FreshTransfer s0) (hu : s0.m.upc = 21#6) (hidx : s0.m.idx.toNat = 0)
    (hwindow : s0.cfg.lastByteWindowMet = true) (hrxne : flag s0.b.sr1 sr1RXNE = false) : ReadRun s0 s0 := by
  obtain ⟨-, ⟨-, -, -, hpending, hsb⟩, hmaster, hstart, hstop⟩ := h
  have hmode : s0.b.bmode ≠ .mSb := fun e => by simp [e, BMode.isMaster] at hmaster
  refine ⟨rfl, rfl, hwindow, [], by simp, ?_⟩
  have hplace : s0.m.upc.toNat = 21 := by rw [hu]; rfl
  refine .entered hplace hidx ⟨hmode, ?_, hpending, fun _ => hmaster⟩ hstart hstop hrxne rfl
  rw [hsb, decide_eq_false hmode]

theorem ReadRun.step {s0 : State} (hrun : ReadRun s0 s) (hinv : MteInv s) (hbusy : s.m.busy = true)
    (hbusy' : t.m.busy = true) (h : RunStep s t) : ReadRun s0 t := by
  obtain ⟨haddr, hnm1, hwindow, evs, htrace, hphase⟩ := hrun
  cases h with
  | keeps hm hb hbuf' htrace' hcfg =>
    refine ⟨by rw [hm, haddr], by rw [hm, hnm1], by rw [hcfg, hwindow], evs, htrace'.trans htrace, ?_⟩
    unfold At
    rw [hm, hb, hbuf']
    exact hphase
  | bus hmove =>
    refine ⟨haddr, hnm1, hwindow, _, ?_, ReadPhase.bus hphase hmove fun hu => ?_⟩
    · rw [← List.append_assoc, ← htrace]
    · have hupc : s.m.upc = nackStopEntry := BitVec.eq_of_toNat_eq hu
      rw [windowHolds, hwindow, hbusy, hupc]
      rfl
  | @micro _ i hat h =>
    have hnext := exec_microNext (isMicro_of_romAt hat) h
    obtain ⟨-, haddr', -, hnm1', -⟩ := hnext.operands_frame
    obtain ⟨-, hcfg, htrace', -⟩ := hnext.surroundings_frame
    refine ⟨haddr'.trans haddr, hnm1'.trans hnm1, by rw [hcfg, hwindow], evs, htrace'.trans htrace, ?_⟩
    by_cases hrx : ∃ q a, i = .rxData q a
    · obtain ⟨q, a, rfl⟩ := hrx
      exact readPhase_rxData hinv hbusy hat h hphase
    · have hrx (q : Seq) (a : MicroAddr) : i ≠ .rxData q a := fun e => hrx ⟨q, a, e⟩
      rw [hnext.buf_frame.1 hrx]
      exact readPhase_micro hinv hbusy hbusy' haddr hat hrx h hphase

end

/-- A READ that returns OK has shown its own events and nothing else, and BUF holds its bytes. -/
theorem read_ok {s0 s t : State} {k : Nat} (hfresh : FreshTransfer s0) (hu : s0.m.upc = 21#6)
    (hwindow : s0.cfg.lastByteWindowMet = true) (hrxne : flag s0.b.sr1 sr1RXNE = false)
    (hrun : BusyRun s0 k s) (hstep : step s = .next t) (hidle : t.m.busy = false) (hok : t.m.result = .ok) :
    ∃ bytes, BufHolds t.buf (s0.m.nm1.toNat + 1) bytes ∧ t.trace = s0.trace ++ readTrace s0.m.addr bytes := by
  have hinv0 : MteInv s0 := hfresh.1
  have hidx0 : s0.m.idx.toNat = 0 := by
    have hplace := mteInv_place hinv0 (busyRun_accepted hrun)
    rw [hu, placeAt_read (by decide)] at hplace
    obtain ⟨-, -, ⟨-, hidx⟩ | ⟨h28, -⟩ | ⟨h30, -⟩ | ⟨h33, -⟩⟩ := hplace
    · exact hidx
    · exact absurd h28 (by decide)
    · exact absurd h30 (by decide)
    · exact absurd h33 (by decide)
  obtain ⟨hinv, hbusy, -, hnm1, -, evs, htrace, hphase⟩ := busyRun_induct hrun hinv0
    (readRun_accepted hfresh hu hidx0 hwindow hrxne) (fun s q n h => ⟨h.addr, h.nm1, h.window, h.phase⟩)
    fun s t hinv hbusy hbusy' h => h.step hinv hbusy hbusy'
  obtain ⟨hend, htrace', hbuf⟩ := step_ends_ok hinv hbusy hstep hidle hok
  have hend : s.m.upc.toNat = 34 := by
    have := hphase.place
    omega
  have hidx : s.m.idx.toNat = s0.m.nm1.toNat + 1 := by
    have hplace := mteInv_place hinv hbusy
    rw [hend, placeAt_read (by decide)] at hplace
    rw [← hnm1]
    exact (by omega : s.m.idx.toNat = transferLength s.m)
  unfold At at hphase
  rw [hend, hidx] at hphase
  cases hphase with
  | head _ h => have := h.place; omega
  | closed _ _ _ hstored hevs => exact ⟨_, hbuf ▸ hstored (by decide), by rw [htrace', htrace, hevs]⟩
  | _ => omega

end Sys2Proof.Machine

/-! ### The statement on a READ that returns OK -/

namespace Sys2Proof.Proofs

open Sys2Proof.Machine

/-- Settles O57, from the run of a READ. -/
theorem readThatReturnsOkNacksOnlyTheLastByte : Obligations.ReadThatReturnsOkNacksOnlyTheLastByte :=
  fun _ _ _ _ hfresh _ hu hwindow hrxne hrun hstep hidle hok => read_ok hfresh hu hwindow hrxne hrun hstep hidle hok

end Sys2Proof.Proofs

/-! The controller's own consistency (rule R181): its mode agrees with MSL, BUSY, SB and the pending byte. Every move of
the bus and every micro-operation keeps it, from any state. -/

namespace Sys2Proof.Machine

open Sys2Proof.Safety

/-! ### The invariant of the controller -/

/-- The invariants of rule R181 as a property of the controller alone: its mode agrees with the status registers, the
environment's bit and the pending byte. -/
structure Bc.Coherent (b : Bc) : Prop where
  msl : flag b.sr2 sr2MSL = b.bmode.isMaster
  other : b.otherBusy = true → b.bmode.isMaster = false ∧ flag b.sr2 sr2BUSY = true
  free : flag b.sr2 sr2BUSY = false → b.bmode = .idle ∧ b.otherBusy = false
  pending : b.txPending = true → b.bmode = .mTx
  sb : flag b.sr1 sr1SB = decide (b.bmode = .mSb)

theorem busInv_iff (s : State) : BusInv s ↔ s.b.Coherent :=
  ⟨fun ⟨hmsl, hother, hfree, hpending, hsb⟩ => ⟨hmsl, hother, hfree, hpending, hsb⟩,
    fun ⟨hmsl, hother, hfree, hpending, hsb⟩ => ⟨hmsl, hother, hfree, hpending, hsb⟩⟩

theorem Bc.coherent_reset : Bc.reset.Coherent :=
  ⟨rfl, nofun, fun _ => ⟨rfl, rfl⟩, nofun, rfl⟩

/-- A controller whose block has just stopped being master is coherent, whatever it was before: MSL = 0, and BUSY says
whether another master holds the bus. -/
theorem Bc.coherent_of_released {c : Bc} {w : Half} (hmode : c.bmode = .idle) (hpending : c.txPending = false)
    (hsb : flag c.sr1 sr1SB = false)
    (hsr2 : c.sr2 = setFlag (setFlag (setFlag w sr2MSL false) sr2TRA false) sr2BUSY c.otherBusy) : c.Coherent := by
  have hmsl : flag c.sr2 sr2MSL = false := by
    simp (disch := decide) only [hsr2, flag_setFlag_ne, flag_setFlag_same]
  have hbusy : flag c.sr2 sr2BUSY = c.otherBusy := by
    rw [hsr2]
    exact flag_setFlag_same _ _ _
  constructor
  · rw [hmsl, hmode]; rfl
  · exact fun h => ⟨by rw [hmode]; rfl, hbusy.trans h⟩
  · exact fun h => ⟨hmode, hbusy.symm.trans h⟩
  · simp [hpending]
  · rw [hsb, hmode]; rfl

theorem Bc.coherent_disabledBc (b : Bc) (cr1 : Half) : (disabledBc b cr1).Coherent :=
  coherent_of_released rfl rfl (flag_zero _) (sr2_released b.sr2 b.otherBusy).symm

theorem Bc.coherent_sendStop (b : Bc) : b.sendStop.Coherent :=
  coherent_of_released rfl rfl (by simp [flag_sendStop_sr1]) rfl

section
variable {b c : Bc} (hb : b.Coherent)
include hb

/-- The invariant looks at SR2, SB, the mode, the pending byte and the environment's bit only. -/
theorem Bc.Coherent.congr (hsr2 : c.sr2 = b.sr2) (hsb : flag c.sr1 sr1SB = flag b.sr1 sr1SB)
    (hmode : c.bmode = b.bmode) (hpending : c.txPending = b.txPending) (hother : c.otherBusy = b.otherBusy) : c.Coherent := by
  constructor
  · rw [hsr2, hmode]; exact hb.msl
  · rw [hsr2, hmode, hother]; exact hb.other
  · rw [hsr2, hmode, hother]; exact hb.free
  · rw [hpending, hmode]; exact hb.pending
  · rw [hsb, hmode]; exact hb.sb

theorem Bc.Coherent.not_pending {m : BMode} (hmode : b.bmode = m) (hm : m ≠ .mTx := by decide) :
    b.txPending = false :=
  Bool.eq_false_iff.2 fun h => hm (hmode.symm.trans (hb.pending h))

theorem Bc.Coherent.sb_clear {m : BMode} (hmode : b.bmode = m) (hm : m ≠ .mSb := by decide) :
    flag b.sr1 sr1SB = false := by
  rw [hb.sb, decide_eq_false (hmode ▸ hm)]

/-- While the block is master no other master holds the bus, and BUSY = 1. -/
theorem Bc.Coherent.of_master (hm : b.bmode.isMaster = true) : b.otherBusy = false ∧ flag b.sr2 sr2BUSY = true := by
  constructor
  · by_contra h
    simp [(hb.other (by simpa using h)).1] at hm
  · by_contra h
    simp [(hb.free (by simpa using h)).1, BMode.isMaster] at hm

/-- A master that goes on as master in a mode past M_SB. -/
theorem Bc.Coherent.goes_on {m : BMode} (hmode : b.bmode = m) (hmaster : c.bmode.isMaster = true)
    (hpast : c.bmode ≠ .mSb) (hsb : flag c.sr1 sr1SB = false) (hpending : c.txPending = true → c.bmode = .mTx)
    (hmsl : flag c.sr2 sr2MSL = flag b.sr2 sr2MSL) (hbusy : flag c.sr2 sr2BUSY = flag b.sr2 sr2BUSY)
    (hother : c.otherBusy = b.otherBusy) (hm : m.isMaster = true := by rfl) : c.Coherent := by
  subst hmode
  obtain ⟨hnone, hheld⟩ := hb.of_master hm
  refine ⟨?_, ?_, ?_, hpending, ?_⟩
  · rw [hmsl, hb.msl, hm, hmaster]
  · simp [hother, hnone]
  · simp [hbusy, hheld]
  · rw [hsb, decide_eq_false hpast]

/-- A master past M_SB that loses the bus to another (rules R172, R173). -/
theorem Bc.Coherent.loseArbitration {m : BMode} (hmode : b.bmode = m) (hm : m.isMaster = true := by rfl)
    (hpast : m ≠ .mSb := by decide) : ({ b.loseArbitration with txPending := false } : Bc).Coherent := by
  have hmsl : flag b.loseArbitration.sr2 sr2MSL = false := by
    simp (disch := decide) only [Bc.loseArbitration, flag_setFlag_ne, flag_setFlag_same]
  have hbusy : flag b.loseArbitration.sr2 sr2BUSY = true := by
    simp (disch := decide) only [Bc.loseArbitration, flag_setFlag_ne, (hb.of_master (hmode ▸ hm)).2]
  have hsb : flag b.loseArbitration.sr1 sr1SB = false := by
    simp (disch := decide) only [Bc.loseArbitration, flag_setFlag_ne, hb.sb_clear hmode hpast]
  exact ⟨hmsl, fun _ => ⟨rfl, hbusy⟩, fun h => by simp [hbusy] at h, nofun, hsb⟩

end

/-! ### The bus and the environment (rules R170 to R178) -/

/-- While BUSY = 1 an idle controller stays idle: a START waits for a free bus (rule R170). -/
theorem busStep_idle_while_busy {τ : Turn} {s t : State} (h : busStep τ s = some t) (hidle : s.b.bmode = .idle)
    (hbusy : flag s.b.sr2 sr2BUSY = true) : t.b.bmode = .idle := by
  cases τ with
  | host | mte => cases h
  | bcStart | envClaim => simp [busStep, bcStart, envClaim, hbusy] at h
  | bcAddr | bcAddrArb | bcTx | bcRx | bcStop =>
    simp [busStep, bcAddr, bcAddrArb, bcTx, bcRx, bcRxEnabled, bcStop, Bc.stalled, hidle] at h
  | bcStopIdle =>
    cases (Option.ite_none_right_eq_some.1 h).2
    exact hidle
  | envRelease =>
    cases (Option.ite_none_right_eq_some.1 h).2
    rfl

/-- A move of the bus keeps the controller coherent, if START waits for a free bus. -/
theorem BusMove.coherent {held : Bool} {b c : Bc} {es : List Event} (h : BusMove held b es c) (hb : b.Coherent)
    (hwaits : b.bmode = .idle → flag b.sr2 sr2BUSY = true → c.bmode = .idle) : c.Coherent := by
  cases h with
  | started _ _ hidle =>
    have hfree : flag b.sr2 sr2BUSY = false := by
      by_contra hbusy
      cases hwaits hidle (by simpa using hbusy)
    constructor
    · simp (disch := decide) only [flag_setFlag_ne, flag_setFlag_same, BMode.isMaster]
    · simp [(hb.free hfree).2]
    · simp
    · simp [hb.not_pending hidle]
    · simp (disch := decide) [flag_setFlag_ne]
  | addressAcked hmode =>
    refine hb.goes_on hmode ?_ ?_ ?_ (by simp [hb.not_pending hmode]) ?_ ?_ rfl
    · cases flag b.dr 0 <;> rfl
    · cases flag b.dr 0 <;> nofun
    · simp (disch := decide) only [flag_setFlag_ne, hb.sb_clear hmode]
    · simp (disch := decide) only [flag_setFlag_ne]
    · simp (disch := decide) only [flag_setFlag_ne]
  | addressNacked hmode | receivedNack _ hmode =>
    refine hb.goes_on hmode rfl nofun ?_ (by simp [hb.not_pending hmode]) rfl rfl rfl
    simp (disch := decide) only [flag_setFlag_ne, hb.sb_clear hmode]
  | addressLost hmode => exact (hb.loseArbitration hmode).congr rfl rfl rfl (hb.not_pending hmode) rfl
  | byteAcked hmode =>
    refine ⟨hb.msl, hb.other, hb.free, nofun, ?_⟩
    simp (disch := decide) only [flag_setFlag_ne, hb.sb]
  | byteNacked hmode =>
    refine hb.goes_on hmode rfl nofun ?_ nofun rfl rfl rfl
    simp (disch := decide) only [flag_setFlag_ne, hb.sb_clear hmode]
  | byteLost hmode => exact hb.loseArbitration hmode
  | receivedStop | stopped => exact Bc.coherent_sendStop _
  | receivedAck => exact hb.congr rfl (flag_setFlag_ne _ _ _ _ (by decide) (by decide)) rfl rfl rfl
  | stoppedIdle => exact hb.congr rfl rfl rfl rfl rfl
  | claimed hidle =>
    have hmsl : flag (setFlag b.sr2 sr2BUSY true) sr2MSL = b.bmode.isMaster := by
      simp (disch := decide) only [flag_setFlag_ne, hb.msl]
    exact ⟨hmsl, fun _ => ⟨by rw [hidle]; rfl, flag_setFlag_same _ _ _⟩, fun h => by simp at h, hb.pending, hb.sb⟩
  | released hmaster =>
    have hmode {m : BMode} (hm : m.isMaster = true) : b.bmode ≠ m := by
      rintro rfl
      simp [hmaster] at hm
    have hmsl : flag (setFlag b.sr2 sr2BUSY false) sr2MSL = false := by
      simp (disch := decide) only [flag_setFlag_ne, hb.msl, hmaster]
    have hpending : b.txPending = false := hb.not_pending rfl (hmode rfl)
    exact ⟨hmsl, nofun, fun _ => ⟨rfl, rfl⟩, fun h => by simp [hpending] at h, hb.sb_clear rfl (hmode rfl)⟩

/-! ### The micro-operations, by what each does to the flags (rule R44) -/

section
variable {b c : Bc} (hb : b.Coherent)
include hb

/-- A clear of ADDR leaves SB. -/
theorem Bc.Coherent.addrCleared (h : AddrCleared b c) : c.Coherent := by
  obtain ⟨-, e⟩ := h
  have hsb : flag c.sr1 sr1SB = flag b.sr1 sr1SB := by
    have hkept : flag 0xFFFD#16 sr1SB = true ∧ flag 0x0080#16 sr1SB = false := by decide
    rw [e, flag_or, flag_and]
    split <;> simp [hkept]
  exact hb.congr (by rw [e]) hsb (by rw [e]) (by rw [e]) (by rw [e])

theorem Bc.Coherent.polled (h : PollFlags b c) : c.Coherent := by
  obtain ⟨_, hcleared | ⟨e, _⟩⟩ := h
  · exact hb.addrCleared hcleared
  · exact hb.congr (by rw [e]) (by rw [e]) (by rw [e]) (by rw [e]) (by rw [e])

/-- SB = 1 means M_SB, so the address byte takes a master from M_SB to M_ADDR; a data byte is pending in M_TX. -/
theorem Bc.Coherent.drWritten {v : Byte} (h : DrWrite v b c) : c.Coherent := by
  obtain ⟨haddress, hdata, hstored⟩ := h
  by_cases ha : flag b.sr1 sr1SB = true ∧ b.sr1SeenSB = true
  · have hmode : b.bmode = .mSb := by simpa [hb.sb] using ha.1
    rw [haddress ha]
    refine hb.goes_on hmode rfl nofun ?_ (by simp [hb.not_pending hmode]) rfl rfl rfl
    rw [flag_and]
    exact Bool.and_false _
  · by_cases hd : b.bmode = .mTx ∧ flag b.sr1 sr1TXE = true
    · rw [hdata ha hd]
      refine ⟨hb.msl, hb.other, hb.free, fun _ => hd.1, ?_⟩
      rw [flag_and, ← hb.sb]
      exact Bool.and_true _
    · rw [hstored ha hd]
      exact hb.congr rfl rfl rfl rfl rfl

/-- What an instruction may do to the flags keeps the controller coherent. -/
theorem Bc.Coherent.flagFrame {i : Instr} (h : FlagFrame i b c) (hother : c.otherBusy = b.otherBusy) :
    c.Coherent := by
  have same (h : SameFlags b c) : c.Coherent := by
    obtain ⟨hsr1, hsr2, hmode, hpending, -⟩ := h
    exact hb.congr hsr2 (by rw [hsr1]) hmode hpending hother
  have disabled (h : Disabled b c) : c.Coherent := by
    obtain ⟨-, -, e⟩ := h
    rw [e]
    exact (coherent_disabledBc b c.cr1).congr rfl rfl rfl rfl rfl
  have masked {x : Half} (hx : flag x sr1SB = true) : flag (b.sr1 &&& x) sr1SB = flag b.sr1 sr1SB := by
    rw [flag_and, hx, Bool.and_true]
  cases i with
  | init | write | read | badCommand | done | tcuEval | wrFreq | wrCcr | wrTrise | pollStop => exact same h
  | peOff | selI2c | setOpts | peOn | ackOn | genStart | genStop | nackStop => exact h.elim same disabled
  | abort =>
    obtain h | h | e := h
    · exact same h
    · exact disabled h
    · rw [e]
      exact hb.congr rfl (masked rfl) rfl rfl rfl
  | pollSb | pollMb | pollAddr | pollTxe | pollBtf | pollRxne => exact hb.polled h
  | clrAddr => exact h.elim same hb.addrCleared
  | txAddr | txData =>
    obtain rfl | ⟨v, hv⟩ := h
    · exact hb
    · exact hb.drWritten hv
  | rxData =>
    rw [show c = _ from h]
    exact hb.congr rfl (masked rfl) rfl rfl rfl

end

/-! ### Every step -/

/-- Every agent keeps the invariants of the controller. -/
theorem StepNext.coherent {s t : State} (h : StepNext s t) (hb : s.b.Coherent) : t.b.Coherent := by
  cases h with
  | host h =>
    obtain ⟨e, -⟩ := h.frame
    rwa [e]
  | stutters => exact hb
  | reservedWord => exact hb
  | micro _ _ _ h =>
    obtain ⟨-, -, hother, -⟩ := h.registers_frame
    exact hb.flagFrame h.flagFrame hother
  | bus h =>
    have hwaits := busStep_idle_while_busy h
    obtain ⟨es, c, hmove, rfl⟩ := busStep_busMove h
    exact hmove.coherent hb hwaits

end Sys2Proof.Machine

/-! ### The statements on the invariants at launch and on the controller's -/

namespace Sys2Proof.Proofs

open Sys2Proof.Machine Sys2Proof.Safety

/-- Settles O46: the controller is coherent at reset, and each agent's step keeps it so. -/
theorem busInvariantHoldsAlways : Obligations.BusInvariantHoldsAlways := by
  refine ⟨fun c p q => (busInv_iff _).2 Bc.coherent_reset, fun s t hinv h => ?_⟩
  obtain ⟨q, n, hs⟩ := step_stepNext h
  exact (busInv_iff t).2 (hs.coherent ((busInv_iff s).1 hinv))

end Sys2Proof.Proofs

/-! The steps of the bus controller and the environment one by one: what a turn does when its guard holds, by the bits of
the registers, and that it changes nothing when the guard does not (rules R170 to R178, R180). -/

namespace Sys2Proof.Machine

open Sys2Proof.Safety

/-! ### A turn and its guard -/

theorem runTurn_of_busStep {τ : Turn} {s u : State} (h : busStep τ s = some u) : runTurn τ s = .next u := by
  have hhost : τ ≠ .host := by rintro rfl; cases h
  have hmte : τ ≠ .mte := by rintro rfl; cases h
  rw [runTurn_bus τ s hhost hmte, h]
  rfl

theorem runTurn_stutters {τ : Turn} {s : State} (h : busStep τ s = none) (hhost : τ ≠ .host := by nofun)
    (hmte : τ ≠ .mte := by nofun) : runTurn τ s = .next s := by
  rw [runTurn_bus τ s hhost hmte, h]
  rfl

/-- Two events and a change of the controller. -/
theorem State.withB_emit_emit (s : State) (x y : Event) (b : Bc) :
    ((s.emit x).emit y).withB b = { s with trace := s.trace ++ [x, y], b := b } := by
  simp [State.emit, State.withB]

/-- Three events and a change of the controller. -/
theorem State.withB_emit_emit_emit (s : State) (x y z : Event) (b : Bc) :
    (((s.emit x).emit y).emit z).withB b = { s with trace := s.trace ++ [x, y, z], b := b } := by
  simp [State.emit, State.withB]

/-! ### Shared flag updates as masks -/

/-- What dropping mastership leaves, by the bits of the registers. -/
theorem Bc.dropMaster_eq_droppedBc (b : Bc) : b.dropMaster = droppedBc b := by
  rw [Bc.dropMaster, sr2_released]
  simp only [setFlag_false, BitVec.and_assoc]
  rfl

/-- The loss of arbitration by the bits of the registers. -/
theorem Bc.loseArbitration_eq (b : Bc) :
    b.loseArbitration = { b with
      sr1 := b.sr1 ||| 0x0200#16, sr2 := b.sr2 &&& 0xFFFA#16, otherBusy := true, bmode := .lost } := by
  simp only [Bc.loseArbitration, setFlag_false, BitVec.and_assoc]
  rfl

/-! ### The guards that are Booleans (rules R174 to R176) -/

theorem bcRxEnabled_iff (s : State) :
    bcRxEnabled s = true ↔ s.b.bmode = .mRx ∧ flag s.b.sr1 1 = false ∧ flag s.b.sr1 6 = false ∧
      ¬ (s.cfg.lastByteWindowMet = true ∧ s.m.busy = true ∧ s.m.upc = 30#6) := by
  simp only [bcRxEnabled, Bool.and_eq_true, Bool.not_eq_true', Bool.and_eq_false_iff, decide_eq_true_eq,
    decide_eq_false_iff_not, and_assoc, not_and_or, Bool.not_eq_true, or_assoc]
  rfl

theorem Bc.stalled_iff (b : Bc) :
    b.stalled = true ↔ b.bmode = .mSb ∨ (b.bmode = .mTx ∧ b.txPending = false) ∨
      (b.bmode = .mRx ∧ (flag b.sr1 1 = true ∨ flag b.sr1 6 = true)) ∨ b.bmode = .mNacked ∨ b.bmode = .mRxEnd := by
  cases hm : b.bmode <;> simp [Bc.stalled, hm]

/-! ### What no step of the bus changes (rule R180) -/

theorem BusMove.oar_kept {held : Bool} {b c : Bc} {es : List Event} (h : BusMove held b es c) :
    c.oar1 = b.oar1 ∧ c.oar2 = b.oar2 := by
  cases h <;> exact ⟨rfl, rfl⟩

/-! ### The launch state (rules R225, R244) -/

/-- In a state that has the reset values of the MTE, the controller, BUF and the ROM every invariant holds. -/
theorem invariants_of_reset_values {s : State} (hm : s.m = Mte.reset) (hb : s.b = Bc.reset) (hrom : s.rom = romWords)
    (hbuf : s.buf = []) :
    BusInv s ∧ MteInv s ∧ QuietBits s ∧ InitDisabled s ∧ AbortReleases s ∧ Memory.wf s.buf = true := by
  have hidle : s.m.busy = false := by rw [hm]; rfl
  have hphase : s.m.aph = false := by rw [hm]; rfl
  refine ⟨?_, ?_, ?_, ?_, ?_, by rw [hbuf]; rfl⟩
  · rw [busInv_iff, hb]
    exact Bc.coherent_reset
  · exact mteInv_of_idle hrom (by rw [hm]; decide) hidle (by rw [hm]; rfl) (by rw [hm]; rfl) hphase
  · rw [QuietBits, hb]
    decide
  · simp [InitDisabled, hidle]
  · simp [AbortReleases, hphase]

end Sys2Proof.Machine

/-! ### The statements on the steps of the bus and on the launch state -/

namespace Sys2Proof.Proofs

open Sys2Proof.Machine Sys2Proof.Safety

/-- Settles O44: a step of the bus changes the controller and the trace only, and of CR1 START and STOP only. -/
theorem busStepsLeaveTheMteAlone : Obligations.BusStepsLeaveTheMteAlone := by
  intro τ s hhost hmte
  cases hstep : busStep τ s with
  | none =>
    exact ⟨s, runTurn_stutters hstep hhost hmte, rfl, rfl, rfl, rfl, rfl, rfl, rfl, rfl, rfl, rfl, rfl, rfl, rfl,
      rfl, rfl, rfl, .inl rfl⟩
  | some u =>
    obtain ⟨⟨hcr2, hccr, htrise, hfltr⟩, hcr1⟩ := busStep_keepsConfig hstep
    have hrun := runTurn_of_busStep hstep
    obtain ⟨es, c, hmove, rfl⟩ := busStep_busMove hstep
    obtain ⟨hoar1, hoar2⟩ := hmove.oar_kept
    exact ⟨_, hrun, rfl, rfl, rfl, rfl, rfl, rfl, rfl, rfl, rfl, rfl, hcr2, hoar1, hoar2, hccr, htrise, hfltr, hcr1⟩

/-- Settles O6: a launch sets the parameters, the host program and the schedule only, which no invariant restricts. -/
theorem resetMeetsTheInvariants : Obligations.ResetMeetsTheInvariants :=
  ⟨fun _ _ _ => invariants_of_reset_values rfl rfl rfl rfl, invariants_of_reset_values rfl rfl rfl rfl⟩

/-- Settles O33: the guard of rule R170 and the flags it sets and clears. -/
theorem startGeneration : Obligations.StartGeneration := by
  intro s
  refine ⟨fun hguard => ?_, fun hguard => ?_⟩
  · have hstep : busStep .bcStart s = some _ := if_pos (by simpa using hguard)
    rw [runTurn_of_busStep hstep]
    simp only [setFlag_true, setFlag_false, BitVec.and_assoc, BitVec.or_assoc]
    rfl
  · exact runTurn_stutters (if_neg (by simpa using hguard))

/-- Settles O34: the two answers of the slave, and the loss of arbitration with another master. -/
theorem addressPhase : Obligations.AddressPhase := by
  intro s
  refine ⟨fun hmode => ⟨?_, ?_⟩, fun hmode hmulti => ?_, fun hmode ans => ?_, fun hguard => ?_⟩
  · have hstep : busStep (.bcAddr .ack) s = some _ := if_pos hmode
    rw [runTurn_of_busStep hstep, State.withB_emit_emit]
    cases flag s.b.dr 0 <;> rfl
  · have hstep : busStep (.bcAddr .nack) s = some _ := if_pos hmode
    rw [runTurn_of_busStep hstep, State.withB_emit_emit]
    rfl
  · have hstep : busStep .bcAddrArb s = some _ := if_pos ⟨hmulti, hmode⟩
    rw [runTurn_of_busStep hstep, Bc.loseArbitration_eq]
    rfl
  · exact runTurn_stutters (if_neg hmode)
  · refine runTurn_stutters (if_neg fun ⟨hmulti, hmode⟩ => ?_)
    simp [hmulti, hmode] at hguard

/-- Settles O35: the three draws of rule R173. -/
theorem transmittedDataByte : Obligations.TransmittedDataByte := by
  intro s
  refine ⟨fun hmode hpending => ⟨?_, ?_, fun hmulti => ?_⟩, fun hguard d => ?_, fun hmulti => ?_⟩
  · have hstep : busStep (.bcTx .ack) s = some _ := if_pos ⟨hmode, hpending⟩
    rw [runTurn_of_busStep hstep, State.withB_emit_emit]
    simp only [setFlag_true, BitVec.or_assoc]
    rfl
  · have hstep : busStep (.bcTx .nack) s = some _ := if_pos ⟨hmode, hpending⟩
    rw [runTurn_of_busStep hstep, State.withB_emit_emit]
    rfl
  · have hstep : busStep (.bcTx .arb) s = some _ := (if_pos ⟨hmode, hpending⟩).trans (if_pos hmulti)
    rw [runTurn_of_busStep hstep, Bc.loseArbitration_eq]
    rfl
  · refine runTurn_stutters (if_neg fun ⟨hmode, hpending⟩ => ?_)
    simp [hmode, hpending] at hguard
  · refine runTurn_stutters ?_
    simp [busStep, bcTx, hmulti]

/-- Settles O36: CR1.ACK chooses the answer, and a requested STOP follows it. -/
theorem receivedDataByte : Obligations.ReceivedDataByte := by
  intro d s
  refine ⟨fun hguard => ?_, fun hguard => runTurn_stutters (if_neg fun h => hguard ((bcRxEnabled_iff s).1 h))⟩
  have henabled := (bcRxEnabled_iff s).2 hguard
  refine ⟨fun hstop => ?_, fun hstop hack => ?_, fun hstop hack => ?_⟩
  · have hstep : busStep (.bcRx d) s = some _ := (if_pos henabled).trans (if_pos hstop)
    rw [runTurn_of_busStep hstep, State.withB_emit_emit_emit, Bc.dropMaster_eq_droppedBc]
    rfl
  · have hstep : busStep (.bcRx d) s = some _ :=
      (if_pos henabled).trans ((if_neg (by simp [hstop])).trans (if_pos hack))
    rw [runTurn_of_busStep hstep, hack, State.withB_emit_emit]
    rfl
  · have hstep : busStep (.bcRx d) s = some _ :=
      (if_pos henabled).trans ((if_neg (by simp [hstop])).trans (if_neg (by simp [hack])))
    rw [runTurn_of_busStep hstep, hack, State.withB_emit_emit]
    rfl

/-- Settles O37: the stalled states of rule R175, and the modes in which the block is not master. -/
theorem stopSteps : Obligations.StopSteps := by
  intro s
  refine ⟨fun ⟨hstop, hstalled⟩ => ?_, fun hguard => ?_, fun ⟨hstop, hmode⟩ => ?_, fun hguard => ?_⟩
  · have hstep : busStep .bcStop s = some _ :=
      if_pos (Bool.and_eq_true_iff.2 ⟨hstop, s.b.stalled_iff.2 hstalled⟩)
    rw [runTurn_of_busStep hstep, Bc.dropMaster_eq_droppedBc]
    rfl
  · refine runTurn_stutters (if_neg fun h => hguard ?_)
    exact (Bool.and_eq_true_iff.1 h).imp_right s.b.stalled_iff.1
  · have hstep : busStep .bcStopIdle s = some _ := if_pos (by simpa [hstop] using (BMode.isMaster_eq_false _).2 hmode)
    rw [runTurn_of_busStep hstep]
    rfl
  · refine runTurn_stutters (if_neg fun h => hguard ?_)
    exact (Bool.and_eq_true_iff.1 h).imp_right fun h => (BMode.isMaster_eq_false _).1 (by simpa using h)

/-- Settles O38: the claim and the release of rules R177 and R178. -/
theorem otherMasterClaimsAndReleases : Obligations.OtherMasterClaimsAndReleases := by
  intro s
  refine ⟨fun hguard => ?_, fun hguard => ?_, fun ⟨hother, hmode⟩ => ?_, fun hguard => ?_⟩
  · have hstep : busStep .envClaim s = some _ := if_pos (by simpa using hguard)
    rw [runTurn_of_busStep hstep]
    rfl
  · exact runTurn_stutters (if_neg (by simpa using hguard))
  · have hstep : busStep .envRelease s = some _ :=
      if_pos (by simpa [hother] using (BMode.isMaster_eq_false _).2 hmode)
    rw [runTurn_of_busStep hstep]
    rfl
  · refine runTurn_stutters (if_neg fun h => hguard ?_)
    exact (Bool.and_eq_true_iff.1 h).imp_right fun h => (BMode.isMaster_eq_false _).1 (by simpa using h)

end Sys2Proof.Proofs

/-! The exceptions: a recorded fault, the two phases of ABORT, and the bits that no step sets (rules R31 to R37, R204,
R208, R210, R213). -/

namespace Sys2Proof.Machine

open Sys2Proof.Safety

/-! ### A recorded fault (rule R210) -/

theorem recordedFault_of_faulted {s : State} (h : Faulted s) :
    ∃ f, recordedFault s = some f ∧
      (f = .unwrittenBuf ∧ s.faults.unwrittenBuf = true ∨
        f = .abortWithoutStop ∧ s.faults.abortWithoutStop = true) := by
  by_cases hbuf : s.faults.unwrittenBuf = true
  · exact ⟨_, if_pos hbuf, .inl ⟨rfl, hbuf⟩⟩
  · have hstop := h.resolve_left hbuf
    exact ⟨_, (if_neg hbuf).trans (if_pos hstop), .inr ⟨rfl, hstop⟩⟩

theorem step_of_recordedFault {s : State} {f : ModelFault} (h : recordedFault s = some f) :
    step s = .fault (.recorded f) := by
  rw [step, stepBody, h]

/-! ### ABORT's phase 0 (rule R204) -/

/-- The value that phase 0 writes to CR1. -/
def abortCr1 (w : Half) : Half := setFlag (setFlag (setFlag w cr1START false) cr1STOP true) cr1ACK false

theorem writesCr1_abort {s : State} (q : Seq) (a : MicroAddr) (haph : s.m.aph = false) :
    WritesCr1 s (.abort q a) (abortCr1 s.b.cr1)
      (fun t => (writeSr1 abortSr1 t).withM { t.m with armed := false, aph := true }) :=
  .abort q a haph

theorem abortCr1_and_cr1Bits (w : Half) :
    abortCr1 w &&& cr1Bits = ((w &&& 0xFAFF#16) ||| 0x0200#16) &&& 0xBFFB#16 := by
  simp only [abortCr1, setFlag_false, setFlag_true, BitVec.and_or_distrib_right, BitVec.and_assoc]
  rfl

/-- A write with PE = 0 leaves nothing of START, STOP and ACK, whatever phase 0 makes of them. -/
theorem abortCr1_disabled (w : Half) : abortCr1 w &&& 0xB8FB#16 = w &&& 0xB8FB#16 := by
  simp (disch := decide) only [abortCr1, setFlag_and_of_flag_false]

/-! ### ABORT's phase 1 (rule R204) -/

section
variable {s : State} (q : Seq) (a : MicroAddr)

theorem exec_abort_polls (haph : s.m.aph = true) : exec (.abort q a) s = .next (abortPollStop q a s) :=
  if_pos haph

theorem abortPollStop_sent (hstop : flag s.b.cr1 cr1STOP = false) :
    abortPollStop q a s = applySeq q a (abortFinish s) :=
  if_pos (by rw [hstop]; rfl)

theorem abortPollStop_pending (hstop : flag s.b.cr1 cr1STOP = true) :
    abortPollStop q a s =
      if s.cfg.pollBudget = 0#16 then s
      else if s.m.cnt = 1#16 then
        applySeq q a (abortFinish (s.withM { s.m with cnt := 0#16, nostop := true }))
      else s.withM { s.m with cnt := s.m.cnt - 1 } := by
  have hlast : s.m.cnt - 1 = 0#16 ↔ s.m.cnt = 1#16 := by bv_omega
  rw [abortPollStop, if_neg (by simp [hstop])]
  by_cases h : s.m.cnt = 1#16
  · simp [h]
  · rw [if_neg (mt hlast.1 h), if_neg h]

end

/-! ### Bits under a mask -/

section
variable {w x mask : Half}

theorem and_and_eq_zero (h : w &&& mask = 0#16) : w &&& x &&& mask = 0#16 := by
  rw [BitVec.and_assoc, BitVec.and_comm x, ← BitVec.and_assoc, h, BitVec.zero_and]

theorem and_and_eq_zero_of_disjoint (h : x &&& mask = 0#16) : w &&& x &&& mask = 0#16 := by
  rw [BitVec.and_assoc, h, BitVec.and_zero]

theorem or_and_eq_zero (hw : w &&& mask = 0#16) (hx : x &&& mask = 0#16) : (w ||| x) &&& mask = 0#16 := by
  rw [BitVec.and_or_distrib_right, hw, hx, BitVec.or_zero]

theorem ite_and_eq_zero {p : Prop} [Decidable p] (hw : w &&& mask = 0#16) (hx : x &&& mask = 0#16) :
    (if p then w else x) &&& mask = 0#16 := by
  split
  · exact hw
  · exact hx

/-- A widened byte has no high bits. -/
theorem zext16_and_high (v : Byte) : zext16 v &&& 0xFF00#16 = 0#16 := by
  rw [← zext16_and v (mask := drBits) rfl]
  exact and_and_eq_zero_of_disjoint (by decide)

end

/-! ### What a step does to the controller -/

/-- A step that takes `s` to `t` leaves the controller as it is, or is a micro-operation, or a step of the bus. -/
inductive BcNext (s t : State) : Prop where
  | keeps (hb : t.b = s.b)
  | micro {i : Instr} (hi : isMicro i = true) (h : exec i s = .next t)
  | bus {τ : Turn} (h : busStep τ s = some t)

theorem runTurn_bcNext {τ : Turn} {s t : State} (h : runTurn τ s = .next t) : BcNext s t := by
  by_cases hhost : τ = .host
  · subst hhost
    exact .keeps (hostTurn_hostNext h).frame.1
  · by_cases hmte : τ = .mte
    · subst hmte
      rcases mteTurn_next h with ⟨-, rfl⟩ | ⟨-, w, -, ⟨_, -, rfl⟩ | ⟨i, hi, h⟩⟩
      · exact .keeps rfl
      · exact .keeps rfl
      · exact .micro (isMicro_of_decodeUop hi) h
    · rw [runTurn_bus τ s hhost hmte] at h
      cases h
      cases hb : busStep τ s with
      | none => exact .keeps rfl
      | some u => exact .bus hb

theorem step_bcNext {s t : State} (h : step s = .next t) :
    ∃ q n, BcNext { s with schedule := q, turnsDrawn := n } t := by
  obtain ⟨q, n, e⟩ := nextTurn_shape s
  obtain ⟨-, -, hrun⟩ := step_next h
  rw [e] at hrun
  exact ⟨q, n, runTurn_bcNext hrun⟩

/-! ### The quiet bits (rules R31 to R37, R42, R213) -/

/-- The quiet bits of DR, SR1 and SR2, which the bus moves. -/
structure Bc.QuietFlags (b : Bc) : Prop where
  dr : b.dr &&& 0xFF00#16 = 0#16
  sr1 : b.sr1 &&& 0xF938#16 = 0#16
  sr2 : b.sr2 &&& 0xFFF8#16 = 0#16

/-- The quiet bits of a controller: no rule sets one. -/
structure Bc.Quiet (b : Bc) : Prop extends b.QuietFlags where
  cr1 : b.cr1 &&& 0xF87C#16 = 0#16
  cr2 : b.cr2 &&& 0xFF00#16 = 0#16
  oar1 : b.oar1 = 0#16
  oar2 : b.oar2 = 0#16
  ccr : b.ccr &&& 0x3000#16 = 0#16
  trise : b.trise &&& 0xFF00#16 = 0#16
  fltr : b.fltr &&& 0xFFE0#16 = 0#16

theorem quietBits_iff (s : State) : QuietBits s ↔ s.b.Quiet :=
  ⟨fun ⟨hcr1, hcr2, hoar1, hoar2, hdr, hsr1, hsr2, hccr, htrise, hfltr⟩ =>
    ⟨⟨hdr, hsr1, hsr2⟩, hcr1, hcr2, hoar1, hoar2, hccr, htrise, hfltr⟩,
  fun ⟨⟨hdr, hsr1, hsr2⟩, hcr1, hcr2, hoar1, hoar2, hccr, htrise, hfltr⟩ =>
    ⟨hcr1, hcr2, hoar1, hoar2, hdr, hsr1, hsr2, hccr, htrise, hfltr⟩⟩

/-! ### The bus and the environment (rules R170 to R178) -/

/-- The flags that the bus and the environment move lie outside the quiet bits. -/
theorem BusMove.quietFlags {held : Bool} {b c : Bc} {es : List Event} (h : BusMove held b es c) (hb : b.QuietFlags) :
    c.QuietFlags := by
  obtain ⟨hdr, hsr1, hsr2⟩ := hb
  cases h with
  | receivedStop d | receivedAck d | receivedNack d =>
    constructor
    · exact zext16_and_high d
    · simp (disch := decide) only [Bc.sendStop, Bc.dropMaster, setFlag_and_of_flag_false, hsr1]
    · simp (disch := decide) only [Bc.sendStop, Bc.dropMaster, setFlag_and_of_flag_false, hsr2]
  | _ =>
    constructor
    · exact hdr
    · simp (disch := decide) only [Bc.sendStop, Bc.dropMaster, Bc.loseArbitration, setFlag_and_of_flag_false, hsr1]
    · simp (disch := decide) only [Bc.sendStop, Bc.dropMaster, Bc.loseArbitration, setFlag_and_of_flag_false, hsr2]

theorem Bc.Quiet.of_busStep {τ : Turn} {s t : State} (hq : s.b.Quiet) (h : busStep τ s = some t) : t.b.Quiet := by
  obtain ⟨⟨hcr2, hccr, htrise, hfltr⟩, -⟩ := busStep_keepsConfig h
  obtain ⟨es, c, hmove, rfl⟩ := busStep_busMove h
  obtain ⟨hoar1, hoar2⟩ := hmove.oar_kept
  refine ⟨hmove.quietFlags hq.toQuietFlags, ?_, ?_, hoar1.trans hq.oar1, hoar2.trans hq.oar2, ?_, ?_, ?_⟩
  · rcases hmove.cr1_cases with e | e | e <;> simp (disch := decide) only [e, setFlag_and_of_flag_false, hq.cr1]
  · rw [hcr2, hq.cr2]
  · rw [hccr, hq.ccr]
  · rw [htrise, hq.trise]
  · rw [hfltr, hq.fltr]

/-! ### The micro-operations -/

section
variable {v : Byte} {b c : Bc} (hb : b.QuietFlags)
include hb

theorem Bc.QuietFlags.drWritten (h : DrWrite v b c) : c.QuietFlags := by
  obtain ⟨haddress, hdata, hstored⟩ := h
  have hbyte := zext16_and_high v
  by_cases ha : flag b.sr1 sr1SB = true ∧ b.sr1SeenSB = true
  · rw [haddress ha]
    exact ⟨hbyte, and_and_eq_zero hb.sr1, hb.sr2⟩
  · by_cases hd : b.bmode = .mTx ∧ flag b.sr1 sr1TXE = true
    · rw [hdata ha hd]
      exact ⟨hbyte, and_and_eq_zero hb.sr1, hb.sr2⟩
    · rw [hstored ha hd]
      exact ⟨hbyte, hb.sr1, hb.sr2⟩

theorem Bc.QuietFlags.addrCleared (h : AddrCleared b c) : c.QuietFlags := by
  rw [h.2]
  exact ⟨hb.dr, or_and_eq_zero (and_and_eq_zero hb.sr1) (ite_and_eq_zero (by decide) (by decide)), hb.sr2⟩

theorem Bc.QuietFlags.polled (h : PollFlags b c) : c.QuietFlags := by
  obtain ⟨-, hcleared | ⟨e, -⟩⟩ := h
  · exact hb.addrCleared hcleared
  · rw [e]
    exact ⟨hb.dr, hb.sr1, hb.sr2⟩

theorem Bc.QuietFlags.disabled (h : Disabled b c) : c.QuietFlags := by
  rw [h.2.2]
  exact ⟨hb.dr, BitVec.zero_and,
    or_and_eq_zero (and_and_eq_zero hb.sr2) (ite_and_eq_zero (by decide) (by decide))⟩

end

/-- What an instruction may do to the flags leaves the quiet bits; a byte in DR is one that was written to it. -/
theorem Bc.QuietFlags.flagFrame {b c : Bc} {i : Instr} (hb : b.QuietFlags) (h : FlagFrame i b c)
    (hdr : (∀ q a, i ≠ .txAddr q a) → (∀ q a, i ≠ .txData q a) → c.dr = b.dr) : c.QuietFlags := by
  have same (hdr : c.dr = b.dr) (h : SameFlags b c) : c.QuietFlags := by
    obtain ⟨hsr1, hsr2, -⟩ := h
    exact ⟨by rw [hdr, hb.dr], by rw [hsr1, hb.sr1], by rw [hsr2, hb.sr2]⟩
  cases i with
  | init | write | read | badCommand | done | tcuEval | wrFreq | wrCcr | wrTrise | pollStop =>
    exact same (hdr nofun nofun) h
  | peOff | selI2c | setOpts | peOn | ackOn | genStart | genStop | nackStop =>
    exact h.elim (same (hdr nofun nofun)) hb.disabled
  | abort =>
    obtain h | h | e := h
    · exact same (hdr nofun nofun) h
    · exact hb.disabled h
    · rw [e]
      exact ⟨hb.dr, and_and_eq_zero hb.sr1, hb.sr2⟩
  | pollSb | pollMb | pollAddr | pollTxe | pollBtf | pollRxne => exact hb.polled h
  | clrAddr => exact h.elim (same (hdr nofun nofun)) hb.addrCleared
  | txAddr | txData =>
    obtain rfl | ⟨v, hv⟩ := h
    · exact hb
    · exact hb.drWritten hv
  | rxData =>
    rw [show c = _ from h]
    exact ⟨hb.dr, and_and_eq_zero hb.sr1, hb.sr2⟩

/-- A register that one micro-operation writes, and no other, has quiet bits if what is written there has. -/
theorem quiet_of_only_writer {i : Instr} {w x mask : Half} (op : Seq → MicroAddr → Instr)
    (hkept : (∀ q a, i ≠ op q a) → x = w) (hq : w &&& mask = 0#16)
    (hwritten : ∀ q a, i = op q a → x &&& mask = 0#16) : x &&& mask = 0#16 := by
  by_cases hw : ∃ q a, i = op q a
  · obtain ⟨q, a, e⟩ := hw
    exact hwritten q a e
  · rw [hkept fun q a e => hw ⟨q, a, e⟩, hq]

/-- SET_OPTS writes the fields of FLTR only. -/
theorem exec_setOpts_fltr {s t : State} {q : Seq} {a : MicroAddr} (h : exec (.setOpts q a) s = .next t)
    (hq : s.b.fltr &&& 0xFFE0#16 = 0#16) : t.b.fltr &&& 0xFFE0#16 = 0#16 := by
  rcases (WritesCr1.setOpts q a).written_or_kept h with ⟨-, b, rfl⟩ | ⟨-, hb⟩
  · rw [applySeq_b]
    exact and_and_eq_zero_of_disjoint (by decide)
  · rw [hb, hq]

section
variable {s t : State} {i : Instr} (hi : isMicro i = true) (h : exec i s = .next t)
include hi h

/-- Micro-operations change only PE, SMBUS, NOSTRETCH, START, STOP and ACK of CR1. -/
theorem exec_cr1_quiet (hq : s.b.cr1 &&& 0xF87C#16 = 0#16) : t.b.cr1 &&& 0xF87C#16 = 0#16 := by
  rcases exec_cr1 hi h with e | ⟨v, after, hw, hv⟩
  · rw [e, hq]
  · have hwritten : v &&& 0xF87C#16 = 0#16 := by
      cases hw <;> simp (disch := decide) only [setFlag_and_of_flag_false, hq]
    rcases hv with e | e <;> rw [e] <;> exact and_and_eq_zero hwritten

theorem Bc.Quiet.of_exec (hq : s.b.Quiet) : t.b.Quiet := by
  have hmicro := exec_microNext hi h
  obtain ⟨hoar1, hoar2, -, hcr2, hccr, htrise, hfltr, hdr, -⟩ := hmicro.registers_frame
  refine ⟨hq.toQuietFlags.flagFrame hmicro.flagFrame hdr, exec_cr1_quiet hi h hq.cr1, ?_, hoar1.trans hq.oar1,
    hoar2.trans hq.oar2, ?_, ?_, ?_⟩
  · refine quiet_of_only_writer .wrFreq hcr2 hq.cr2 fun q a e => ?_
    subst e
    cases h
    rw [applySeq_b]
    exact and_and_eq_zero (or_and_eq_zero (and_and_eq_zero hq.cr2) (zext16_and_high _))
  · refine quiet_of_only_writer .wrCcr hccr hq.ccr fun q a e => ?_
    subst e
    cases h
    rw [applySeq_b]
    exact and_and_eq_zero_of_disjoint (by decide)
  · refine quiet_of_only_writer .wrTrise htrise hq.trise fun q a e => ?_
    subst e
    cases h
    rw [applySeq_b]
    exact and_and_eq_zero_of_disjoint (by decide)
  · exact quiet_of_only_writer .setOpts hfltr hq.fltr fun q a e => exec_setOpts_fltr (e ▸ h) hq.fltr

end

theorem Bc.Quiet.of_bcNext {s t : State} (hq : s.b.Quiet) (h : BcNext s t) : t.b.Quiet := by
  cases h with
  | keeps hb => rwa [hb]
  | micro hi h => exact hq.of_exec hi h
  | bus h => exact hq.of_busStep h

end Sys2Proof.Machine

namespace Sys2Proof.Proofs

open Sys2Proof.Machine Sys2Proof.Safety

/-- Settles O9: the recorded fault stops the step, and the end of a run has none. -/
theorem faultedStateTakesNoStep : Obligations.FaultedStateTakesNoStep := by
  intro s hf
  obtain ⟨f, hrec, hwhich⟩ := recordedFault_of_faulted hf
  exact ⟨⟨f, step_of_recordedFault hrec, hwhich⟩, fun ⟨_, _, _, hnf⟩ => hnf hf⟩

/-- Settles O27, from the CR1 write of phase 0 with PE = 1 and with PE = 0. -/
theorem abortAssertsStop : Obligations.AbortAssertsStop := by
  intro seq tgt s haph h15
  have hop := writesCr1_abort seq tgt haph
  refine ⟨fun hpe => ?_, fun hpe hmode => ?_⟩
  · rw [hop.exec_enabled h15 ((hop.flag_pe nofun nofun).trans hpe), abortCr1_and_cr1Bits]
    rfl
  · have hoff := (hop.flag_pe nofun nofun).trans hpe
    rw [hop.exec_disables h15 hoff ((BMode.isMaster_eq_false _).2 hmode), abortCr1_disabled]
    simp [writeSr1, disabledBc, State.withB, State.withM]

/-- Settles O28, from the ways of phase 1. -/
theorem abortEndsTheCommandWithItsError : Obligations.AbortEndsTheCommandWithItsError := by
  intro seq tgt s haph
  rw [exec_abort_polls seq tgt haph]
  refine ⟨fun hstop => ?_, fun hstop h0 => ?_, fun hstop h0 hcnt => ?_, fun hstop h0 hcnt => ?_, ?_⟩
  · rw [abortPollStop_sent seq tgt hstop]
    rfl
  · rw [abortPollStop_pending seq tgt hstop, if_pos h0]
  · rw [abortPollStop_pending seq tgt hstop, if_neg h0, if_neg hcnt]
    rfl
  · rw [abortPollStop_pending seq tgt hstop, if_neg h0, if_pos hcnt]
    rfl
  · cases s.m.err <;> rfl

/-- Settles O48, from what each agent's step does to the controller. -/
theorem quietBitsStayQuiet : Obligations.QuietBitsStayQuiet := by
  intro s t hq h
  obtain ⟨q, n, hs⟩ := step_bcNext h
  exact (quietBits_iff t).2 (((quietBits_iff s).1 hq).of_bcNext (s := { s with schedule := q, turnsDrawn := n }) hs)

end Sys2Proof.Proofs

/-! The release of the bus: what stop-sent says of the controller, where a WRITE or READ stands with its START and its
STOP, and that a command which ends on stop-sent leaves the block not master (rules R147, R205, R237). -/

namespace Sys2Proof.Machine

open Sys2Proof.Safety

/-! ### Stop-sent (rules R41, R205) -/

/-- No START is pending, and stop-sent means that the block is not master. -/
structure Bc.StopReleases (b : Bc) : Prop where
  start : flag b.cr1 cr1START = false
  stopSent : flag b.cr1 cr1STOP = false → b.bmode.isMaster = false

theorem abortReleases_iff (s : State) : AbortReleases s ↔ (s.m.aph = true → s.b.StopReleases) :=
  ⟨fun h ha => ⟨(h ha).1, (h ha).2⟩, fun h ha => ⟨(h ha).start, (h ha).stopSent⟩⟩

theorem Bc.released_disabledBc (b : Bc) (v : Half) : (disabledBc b (v &&& 0xB8FB#16)).Released :=
  ⟨rfl, (flag_and v _ cr1START).trans (Bool.and_false _)⟩

theorem Bc.Released.stopReleases {b : Bc} (hb : b.Released) : b.StopReleases :=
  ⟨hb.start, fun _ => hb.notMaster⟩

/-- A value that requests a STOP and no START. -/
theorem Bc.stopReleases_of_requested (b : Bc) {v : Half} (hstart : flag v cr1START = false)
    (hstop : flag v cr1STOP = true) : ({ b with cr1 := v &&& cr1Bits } : Bc).StopReleases := by
  constructor
  · exact (flag_and v _ cr1START).trans (by rw [hstart, Bool.false_and])
  · intro h
    rw [flag_and, hstop] at h
    cases h

section
variable {held : Bool} {b c : Bc} {es : List Event} (h : BusMove held b es c)
include h

/-- Only a START that was requested takes the block to M_SB, and it clears the request (rule R170). -/
theorem BusMove.to_mSb (hc : c.bmode = .mSb) : flag b.cr1 cr1START = true ∧ flag c.cr1 cr1START = false := by
  cases h with
  | started _ hstart => exact ⟨hstart, flag_setFlag_same _ _ _⟩
  | addressAcked => cases hd : flag b.dr 0 <;> simp [hd] at hc
  | byteAcked hmode | receivedAck _ hmode | claimed hmode => cases hmode.symm.trans hc
  | stoppedIdle _ hmaster => simp [show b.bmode = .mSb from hc, BMode.isMaster] at hmaster
  | _ => cases hc

/-- The bus clears STOP only as the block stops being master (rules R174 to R176). -/
theorem BusMove.stopReleases (hb : b.StopReleases) : c.StopReleases := by
  refine ⟨h.cr1_clear hb.start, fun hsent => ?_⟩
  by_cases hstop : flag b.cr1 cr1STOP = false
  · rcases h.of_notMaster (hb.stopSent hstop) with ⟨hreq, -⟩ | ⟨-, hmaster, -⟩
    · simp [hb.start] at hreq
    · exact hmaster
  · cases h with
    | started _ hreq => simp [hb.start] at hreq
    | receivedStop | stopped => rfl
    | stoppedIdle _ hmaster => exact hmaster
    | _ => exact absurd hsent hstop

end

/-! ### ABORT (rules R204, R205) -/

theorem eq_abort_of_romAt {i : Instr} (h : RomAt 35 i) : ∃ a, i = .abort .endCmd a := by
  cases i with
  | abort q a => exact ⟨a, by rw [h.1]⟩
  | init | write | read | badCommand => exact h.elim
  | _ => dsimp only [RomAt] at h; omega

theorem eq_done_of_romAt {u : Nat} {i : Instr} (hu : u = 20 ∨ u = 34) (h : RomAt u i) : ∃ a, i = .done .endCmd a := by
  cases i with
  | done q a => exact ⟨a, by rw [h.1]⟩
  | init | write | read | badCommand => exact h.elim
  | _ => dsimp only [RomAt] at h; omega

section
variable {s t : State} {i : Instr}

/-- The phase of ABORT is 0 but in a running command that stands there. -/
theorem mteInv_aph (hinv : MteInv s) (haph : s.m.aph = true) : s.m.busy = true ∧ s.m.upc.toNat = 35 := by
  obtain ⟨-, -, -, -, -, hidle, hphase, -⟩ := hinv
  constructor
  · by_contra hb
    obtain ⟨-, -, hphase0⟩ := hidle (by simpa using hb)
    cases hphase0.symm.trans haph
  · rw [(hphase haph).1]
    rfl

/-- ABORT's phase 0 leads to phase 1 with a STOP requested and no START pending, or with the block disabled; while
phase 1 goes on it leaves the controller alone. -/
theorem abort_stopReleases {q : Seq} {a : MicroAddr} (h : exec (.abort q a) s = .next t) (haph : t.m.aph = true)
    (hs : s.m.aph = true → s.b.StopReleases) : t.b.StopReleases := by
  cases hphase : s.m.aph with
  | false =>
    have hop := writesCr1_abort q a hphase
    rcases hop.ends h with ⟨hm, -⟩ | ⟨-, rfl⟩ | ⟨-, -, rfl⟩
    · simp [hm, hphase] at haph
    · have hstart : flag (abortCr1 s.b.cr1) cr1START = false := by
        simp (disch := decide) only [abortCr1, flag_setFlag_ne, flag_setFlag_same]
      have hstop : flag (abortCr1 s.b.cr1) cr1STOP = true := by
        simp (disch := decide) only [abortCr1, flag_setFlag_ne, flag_setFlag_same]
      have hc := s.b.stopReleases_of_requested hstart hstop
      exact ⟨hc.start, hc.stopSent⟩
    · have hc := (s.b.released_disabledBc (abortCr1 s.b.cr1)).stopReleases
      exact ⟨hc.start, hc.stopSent⟩
  | true =>
    have hb : t.b = s.b := by
      cases exec_microNext rfl h with
      | abortEnds => simp
      | refused | faulted => simp
      | abortWaits => rfl
      | cr1Written hi => cases hi with | abort _ _ hphase' => simp [hphase] at hphase'
      | pollRaises _ hi | pollCompletes hi | pollWaits hi => cases hi
    rw [hb]
    exact hs hphase

/-- A micro-operation keeps the release of the bus by ABORT, which alone moves `m.aph`. -/
theorem abortReleases_of_exec (hinv : MteInv s) (hat : RomAt s.m.upc.toNat i) (h : exec i s = .next t)
    (hs : AbortReleases s) : AbortReleases t := by
  rw [abortReleases_iff] at hs ⊢
  intro haph
  by_cases hi : ∃ q a, i = .abort q a
  · obtain ⟨q, a, rfl⟩ := hi
    exact abort_stopReleases h haph hs
  · obtain ⟨-, -, -, -, -, hkept, -⟩ := (exec_microNext (isMicro_of_romAt hat) h).mte_frame
    rw [hkept fun q a e => hi ⟨q, a, e⟩] at haph
    rw [(mteInv_aph hinv haph).2] at hat
    obtain ⟨a, rfl⟩ := eq_abort_of_romAt hat
    exact absurd ⟨_, a, rfl⟩ hi

theorem abortReleases_of_runStep (hinv : MteInv s) (hs : AbortReleases s) (h : RunStep s t) : AbortReleases t := by
  cases h with
  | keeps hm hb =>
    unfold AbortReleases
    rw [hm, hb]
    exact hs
  | micro hat h => exact abortReleases_of_exec hinv hat h hs
  | bus hmove => exact (abortReleases_iff _).2 fun haph => hmove.stopReleases ((abortReleases_iff s).1 hs haph)

/-- An idle MTE stays as it is, or latches a command while the controller is left alone. -/
theorem step_idle (hinv : MteInv s) (hidle : s.m.busy = false) (h : step s = .next t) :
    t.m = s.m ∨ ∃ i, Latches s.m i t.m ∧ t.b = s.b := by
  obtain ⟨q, n, hs⟩ := step_controllerNext hinv h
  cases hs with
  | keeps hm => exact .inl hm
  | accepts _ hm hb => exact .inr ⟨_, hm, hb⟩
  | micro hbusy => cases hidle.symm.trans hbusy
  | bus hm => exact .inl hm

theorem Latches.aph_kept {m m' : Mte} (hm : Latches m i m') : m'.aph = m.aph := by
  cases hm <;> rfl

theorem abortReleases_of_step (hinv : MteInv s) (hs : AbortReleases s) (h : step s = .next t) : AbortReleases t := by
  cases hbusy : s.m.busy with
  | true =>
    obtain ⟨q, n, hrun⟩ := step_runStep hinv hbusy h
    exact abortReleases_of_runStep (s := { s with schedule := q, turnsDrawn := n }) hinv hs hrun
  | false =>
    intro haph
    have hphase : s.m.aph = true := by
      rcases step_idle hinv hbusy h with hm | ⟨i, hm, -⟩
      · rwa [hm] at haph
      · rwa [hm.aph_kept] at haph
    cases hbusy.symm.trans (mteInv_aph hinv hphase).1

/-- The MTE's turn in ABORT's phase 1 ends the command if it finds stop-sent, and leaves NOSTOP and the controller. -/
theorem mteTurn_abort_stopSent (hinv : MteInv s) (haph : s.m.aph = true) (hstop : flag s.b.cr1 cr1STOP = false)
    (h : mteTurn s = .next t) : t.m.busy = false ∧ t.m.nostop = s.m.nostop ∧ t.b = s.b := by
  obtain ⟨hbusy, hu⟩ := mteInv_aph hinv haph
  have hw : fetchWord s = some 0x0038#16 := by
    rw [fetchWord, mteInv_rom hinv, hu]
    rfl
  have hi : decodeUop 0x0038#16 = .ok (.abort .endCmd 0#6) := by decide
  rw [mteTurn_decoded hbusy hw hi, exec_abort_polls _ _ haph, abortPollStop_sent _ _ hstop] at h
  cases h
  exact ⟨rfl, rfl, rfl⟩

/-- So does a step that is the MTE's turn. -/
theorem step_abort_stopSent (hinv : MteInv s) (hturn : (nextTurn s).1 = .mte) (haph : s.m.aph = true)
    (hstop : flag s.b.cr1 cr1STOP = false) (h : step s = .next t) :
    t.m.busy = false ∧ t.m.nostop = s.m.nostop ∧ t.b = s.b := by
  obtain ⟨q, n, e⟩ := nextTurn_shape s
  obtain ⟨-, -, hrun⟩ := step_next h
  rw [hturn, e] at hrun
  exact mteTurn_abort_stopSent (s := { s with schedule := q, turnsDrawn := n }) hinv haph hstop hrun

end

/-! ### Where a WRITE or READ stands with its START and its STOP (rules R137, R138, R146, R147, R150) -/

/-- The places from POLL_MB to the micro-operation that requests the STOP. -/
abbrev SentPlace (u : Nat) : Prop := (11 ≤ u ∧ u ≤ 18) ∨ (24 ≤ u ∧ u ≤ 30)

/-- A command at `u` holds its START and its STOP as `TransferReleases` says. -/
inductive ReleasePhase (u : Nat) (b : Bc) : Prop where
  | outside (hu : u ≤ 8 ∨ 35 ≤ u)
  | unrequested (hu : u = 9 ∨ u = 21 ∨ u = 22) (hstart : flag b.cr1 cr1START = false) (hmode : b.bmode ≠ .mSb)
  | requested (hu : u = 10 ∨ u = 23) (hsent : b.bmode = .mSb → flag b.cr1 cr1START = false)
  | sent (hu : SentPlace u) (hstart : flag b.cr1 cr1START = false)
  | stopping (hu : u = 19 ∨ (31 ≤ u ∧ u ≤ 33)) (hb : b.StopReleases)
  | released (hu : u = 20 ∨ u = 34) (hb : b.Released)

theorem transferReleases_iff (s : State) :
    TransferReleases s ↔ (s.m.busy = true → ReleasePhase s.m.upc.toNat s.b) := by
  simp only [TransferReleases, List.mem_cons, List.not_mem_nil, or_false]
  refine ⟨fun h hbusy => ?_, fun h hbusy hlo hup => ?_⟩
  · by_cases hout : s.m.upc.toNat ≤ 8 ∨ 35 ≤ s.m.upc.toNat
    · exact .outside hout
    · obtain ⟨hbefore, hsent, hafter, hstop, hreleased⟩ := h hbusy (by omega) (by omega)
      have hcover : (s.m.upc.toNat = 9 ∨ s.m.upc.toNat = 21 ∨ s.m.upc.toNat = 22) ∨
          (s.m.upc.toNat = 10 ∨ s.m.upc.toNat = 23) ∨
          SentPlace s.m.upc.toNat ∨ (s.m.upc.toNat = 19 ∨ (31 ≤ s.m.upc.toNat ∧ s.m.upc.toNat ≤ 33)) ∨
          (s.m.upc.toNat = 20 ∨ s.m.upc.toNat = 34) := by omega
      rcases hcover with hu | hu | hu | hu | hu
      · exact .unrequested hu (hbefore hu).1 (hbefore hu).2
      · exact .requested hu (hsent hu)
      · exact .sent hu (hafter (by omega))
      · exact .stopping hu ⟨hafter (by omega), hstop (by omega)⟩
      · exact .released hu ⟨hreleased hu, hafter (by omega)⟩
  · cases h hbusy with
    | outside hu => omega
    | unrequested hu hstart hmode =>
      exact ⟨fun _ => ⟨hstart, hmode⟩, by omega, fun _ => hstart, by omega, by omega⟩
    | requested hu hsent => exact ⟨by omega, fun _ => hsent, by omega, by omega, by omega⟩
    | sent hu hstart => exact ⟨by omega, by omega, fun _ => hstart, by omega, by omega⟩
    | stopping hu hb => exact ⟨by omega, by omega, fun _ => hb.start, fun _ => hb.stopSent, by omega⟩
    | released hu hb =>
      exact ⟨by omega, by omega, fun _ => hb.start, by omega, fun _ => hb.notMaster⟩

section
variable {u : Nat} {b c : Bc}

/-- The phase speaks of CR1 and the mode only. -/
theorem ReleasePhase.congr (h : ReleasePhase u b) (hcr1 : c.cr1 = b.cr1) (hmode : c.bmode = b.bmode) :
    ReleasePhase u c := by
  cases h with
  | outside hu => exact .outside hu
  | unrequested hu hstart hm => exact .unrequested hu (by rwa [hcr1]) (by rwa [hmode])
  | requested hu hsent => exact .requested hu (by rwa [hcr1, hmode])
  | sent hu hstart => exact .sent hu (by rwa [hcr1])
  | stopping hu hb => exact .stopping hu ⟨by rw [hcr1, hb.start], by rw [hcr1, hmode]; exact hb.stopSent⟩
  | released hu hb => exact .released hu ⟨by rw [hmode, hb.notMaster], by rw [hcr1, hb.start]⟩

theorem ReleasePhase.polled (h : ReleasePhase u b) (hflags : PollFlags b c) : ReleasePhase u c := by
  obtain ⟨hcr1, hmode, -⟩ := pollFlags_kept hflags
  exact h.congr hcr1 hmode

theorem ReleasePhase.bus {held : Bool} {es : List Event} (h : ReleasePhase u b) (hmove : BusMove held b es c) :
    ReleasePhase u c := by
  cases h with
  | outside hu => exact .outside hu
  | unrequested hu hstart =>
    refine .unrequested hu (hmove.cr1_clear hstart) fun hc => ?_
    simp [(hmove.to_mSb hc).1] at hstart
  | requested hu => exact .requested hu fun hc => (hmove.to_mSb hc).2
  | sent hu hstart => exact .sent hu (hmove.cr1_clear hstart)
  | stopping hu hb => exact .stopping hu (hmove.stopReleases hb)
  | released hu hb => exact .released hu (hmove.of_released hb).2.1

/-- POLL_SB completes in M_SB, where the START is sent. -/
theorem ReleasePhase.sbSeen (h : ReleasePhase u b) (hu : u = 10 ∨ u = 23) (hmode : b.bmode = .mSb) :
    ReleasePhase (u + 1) b := by
  cases h with
  | requested _ hsent => exact .sent (by omega) (hsent hmode)
  | _ => omega

theorem ReleasePhase.stopSeen (h : ReleasePhase u b) (hu : u = 19 ∨ u = 33) (hstop : flag b.cr1 cr1STOP = false) :
    ReleasePhase (u + 1) b := by
  cases h with
  | stopping _ hb => exact .released (by omega) ⟨hb.stopSent hstop, hb.start⟩
  | _ => omega

theorem ReleasePhase.stopReleases (h : ReleasePhase u b) (hu : u = 19 ∨ (31 ≤ u ∧ u ≤ 33)) : b.StopReleases := by
  cases h with
  | stopping _ hb => exact hb
  | _ => omega

theorem ReleasePhase.start_clear (h : ReleasePhase u b) (hu : 9 ≤ u ∧ u ≤ 34 ∧ u ≠ 10 ∧ u ≠ 23) :
    flag b.cr1 cr1START = false := by
  cases h with
  | unrequested _ hstart | sent _ hstart => exact hstart
  | stopping _ hb => exact hb.start
  | released _ hb => exact hb.start
  | _ => omega

theorem ReleasePhase.not_mSb (h : ReleasePhase u b) (hu : u = 9 ∨ u = 21 ∨ u = 22) : b.bmode ≠ .mSb := by
  cases h with
  | unrequested _ _ hmode => exact hmode
  | _ => omega

end

/-! ### The micro-operations of a WRITE or READ -/

/-- The command that runs in `s` is in its phase. -/
abbrev InReleasePhase (s : State) : Prop := At (fun u _ => ReleasePhase u) s

/-- A SEQ that branches takes its target or the next place. -/
theorem applySeq_branch_upc {q : Seq} (hq : q = .loopw ∨ q = .loopr ∨ q = .skip1) (a : MicroAddr) (s : State) :
    (applySeq q a s).m.upc = a ∨ (applySeq q a s).m.upc = s.m.upc + 1 := by
  rcases hq with rfl | rfl | rfl
  · rw [applySeq_loopw]
    split <;> simp
  · rw [applySeq_loopr]
    split <;> simp
  · rw [applySeq_skip1]
    split <;> simp

section
variable {s t : State} {i : Instr}

/-- No micro-operation between POLL_MB and the request of the STOP writes CR1. -/
theorem not_writesCr1_of_sentPlace (hat : RomAt s.m.upc.toNat i) (hu : SentPlace s.m.upc.toNat)
    (hlast : s.m.upc.toNat ≠ 18 ∧ s.m.upc.toNat ≠ 30) (v : Half) (after : State → State) : ¬ WritesCr1 s i v after := by
  intro hi
  cases hi <;> dsimp only [RomAt] at hat <;> omega

/-- The micro-operations from POLL_MB to the request of the STOP stay among these places, or go to ABORT. -/
theorem MicroNext.sentPlace (h : MicroNext s i t) (hat : RomAt s.m.upc.toNat i) (hu : SentPlace s.m.upc.toNat)
    (hlast : s.m.upc.toNat ≠ 18 ∧ s.m.upc.toNat ≠ 30) : SentPlace t.m.upc.toNat ∨ t.m.upc.toNat = 35 := by
  have stays (w : State) (hw : w.m.upc = s.m.upc) : SentPlace w.m.upc.toNat ∨ w.m.upc.toNat = 35 := .inl (hw ▸ hu)
  have next (w : State) (hw : w.m.upc = s.m.upc + 1) : SentPlace w.m.upc.toNat ∨ w.m.upc.toNat = 35 := by
    rw [hw, upc_succ (by omega)]
    omega
  have branches {q : Seq} {a : MicroAddr} (w : State) (hw : w.m.upc = s.m.upc)
      (hq : q = .loopw ∨ q = .loopr ∨ q = .skip1) (ha : SentPlace a.toNat) :
      SentPlace (applySeq q a w).m.upc.toNat ∨ (applySeq q a w).m.upc.toNat = 35 := by
    rcases applySeq_branch_upc hq a w with e | e
    · rw [e]
      exact .inl ha
    · exact next _ (by rw [e, hw])
  cases h with
  | unwrittenByte => exact stays _ rfl
  | pollWaits => exact stays _ rfl
  | pollRaises => exact .inr rfl
  | txAddr | txData =>
    obtain ⟨rfl, -⟩ := hat
    exact next _ rfl
  | clrAddr =>
    rcases hat with ⟨rfl, -⟩ | ⟨rfl, rfl, -⟩
    · exact next _ rfl
    · exact branches _ rfl (by decide) (by decide)
  | rxData =>
    rcases hat with ⟨rfl, rfl, -⟩ | ⟨rfl, hu'⟩
    · exact branches _ rfl (by decide) (by decide)
    · omega
  | pollCompletes hi =>
    cases hi with
    | pollBtf =>
      obtain ⟨rfl, rfl, -⟩ := hat
      exact branches _ rfl (by decide) (by decide)
    | _ =>
      obtain ⟨rfl, -⟩ := hat
      exact next _ rfl
  | refused hi | faulted hi | cr1Written hi => exact absurd hi (not_writesCr1_of_sentPlace hat hu hlast _ _)
  | _ => dsimp only [RomAt] at hat; omega

/-- From POLL_MB to the request of the STOP no START is pending. -/
theorem inReleasePhase_sent (hs : InReleasePhase s) (hat : RomAt s.m.upc.toNat i) (h : exec i s = .next t)
    (hu : SentPlace s.m.upc.toNat) (hlast : s.m.upc.toNat ≠ 18 ∧ s.m.upc.toNat ≠ 30) : InReleasePhase t := by
  have hnext := exec_microNext (isMicro_of_romAt hat) h
  have hcr1 : t.b.cr1 = s.b.cr1 := hnext.cr1_kept (not_writesCr1_of_sentPlace hat hu hlast)
  rcases hnext.sentPlace hat hu hlast with hu' | hu'
  · exact .sent hu' (by rw [hcr1]; exact hs.start_clear (by omega))
  · exact .outside (by omega)

/-- A poll goes to ABORT, waits, or goes straight on. -/
theorem inReleasePhase_poll {row : PollRow} {act : State → State} {a : MicroAddr} (hop : PollOp i row act .next a)
    (hcount : i ≠ .pollBtf .next a) (hrom : s.m.upc.toNat ≤ 35) (hs : InReleasePhase s) (h : exec i s = .next t)
    (hdone : row.cond.holds (pollReads row s).1 = true → ReleasePhase s.m.upc.toNat s.b →
      ReleasePhase (s.m.upc.toNat + 1) s.b) : InReleasePhase t :=
  hop.at_next hcount rfl hrom h (fun _ _ => hs.polled) (fun _ _ => .outside (by omega))
    fun _ _ hc hflags _ => (hdone hc hs).polled hflags

/-- A completed micro-operation that goes straight on. -/
theorem inReleasePhase_next {a : MicroAddr} {w : State} (hw : w.m.upc = s.m.upc) (hrom : s.m.upc.toNat ≤ 35)
    (h : ReleasePhase (s.m.upc.toNat + 1) w.b) : InReleasePhase (applySeq .next a w) :=
  at_next (congrArg BitVec.toNat hw) hrom h

/-- GEN_STOP and NACK_STOP request a STOP, or disable a block that is not master. -/
theorem inReleasePhase_stopRequested {v : Half} {a : MicroAddr}
    (hop : WritesCr1 s i v fun w => applySeq .next a (disarm w)) (hu : s.m.upc.toNat = 18 ∨ s.m.upc.toNat = 30)
    (hs : InReleasePhase s) (h : exec i s = .next t) (hstart : flag v cr1START = flag s.b.cr1 cr1START)
    (hstop : flag v cr1STOP = true) : InReleasePhase t := by
  refine hop.at h hs (fun _ => ?_) fun _ _ => ?_
  · have hb := s.b.stopReleases_of_requested (hstart.trans (hs.start_clear (by omega))) hstop
    exact inReleasePhase_next (s := s) rfl (by omega) (.stopping (by omega) hb)
  · exact inReleasePhase_next (s := s) rfl (by omega) (.stopping (by omega) (Bc.released_disabledBc _ _).stopReleases)

/-- Every micro-operation of a WRITE or READ takes it from phase to phase. -/
theorem inReleasePhase_of_exec (hbus : s.b.Coherent) (hu : 9 ≤ s.m.upc.toNat) (hbusy' : t.m.busy = true)
    (hat : RomAt s.m.upc.toNat i) (h : exec i s = .next t) (hs : InReleasePhase s) : InReleasePhase t := by
  by_cases hsent : SentPlace s.m.upc.toNat ∧ s.m.upc.toNat ≠ 18 ∧ s.m.upc.toNat ≠ 30
  · exact inReleasePhase_sent hs hat h hsent.1 hsent.2
  cases i with
  | ackOn q a =>
    obtain ⟨rfl, hu⟩ := hat
    refine (WritesCr1.ackOn .next a).at h hs (fun _ => ?_) fun _ _ => ?_
    · refine inReleasePhase_next (s := s) rfl (by omega) (.unrequested (by omega) ?_ (hs.not_mSb (by omega)))
      change flag (setFlag s.b.cr1 cr1ACK true &&& cr1Bits) cr1START = false
      rw [flag_and, flag_setFlag_ne _ _ _ _ (by decide) (by decide), hs.start_clear (by omega), Bool.false_and]
    · have hb := s.b.released_disabledBc (setFlag s.b.cr1 cr1ACK true)
      exact inReleasePhase_next (s := s) rfl (by omega) (.unrequested (by omega) hb.start nofun)
  | genStart q a =>
    obtain ⟨rfl, hu⟩ := hat
    have hmode := hs.not_mSb (by omega)
    refine (WritesCr1.genStart .next a).at h hs (fun _ => ?_) fun _ _ => ?_
    · exact inReleasePhase_next (s := s) rfl (by omega) (.requested (by omega) fun e => absurd e hmode)
    · exact inReleasePhase_next (s := s) rfl (by omega) (.requested (by omega) nofun)
  | pollSb q a =>
    obtain ⟨rfl, hu⟩ := hat
    refine inReleasePhase_poll (.pollSb .next a) nofun (by omega) hs h fun hsb hp => hp.sbSeen hu ?_
    exact of_decide_eq_true (hbus.sb.symm.trans hsb)
  | genStop q a =>
    obtain ⟨rfl, hu⟩ := hat
    refine inReleasePhase_stopRequested (.genStop .next a) (.inl hu) hs h ?_ (flag_setFlag_same _ _ _)
    exact flag_setFlag_ne _ _ _ _ (by decide) (by decide)
  | nackStop q a =>
    obtain ⟨rfl, hu⟩ := hat
    refine inReleasePhase_stopRequested (.nackStop .next a) (.inr hu) hs h ?_ (flag_setFlag_same _ _ _)
    simp (disch := decide) only [flag_setFlag_ne]
  | pollStop q a =>
    obtain ⟨rfl, hu⟩ := hat
    exact inReleasePhase_poll (.pollStop .next a) nofun (by omega) hs h fun hstop hp =>
      hp.stopSeen hu ((Bool.not_eq_true' _).mp hstop)
  | pollRxne q a =>
    obtain ⟨rfl, hu⟩ := hat
    exact inReleasePhase_poll (.pollRxne .next a) nofun (by omega) hs h fun _ hp =>
      .stopping (by omega) (hp.stopReleases (by omega))
  | rxData q a =>
    rcases hat with ⟨-, -, hu⟩ | ⟨rfl, hu⟩
    · omega
    · have hb := hs.stopReleases (by omega)
      by_cases hidx : s.m.idx.toNat < bufDepth
      · rw [exec_rxData_inside _ _ _ hidx] at h
        cases h
        exact inReleasePhase_next (s := s) rfl (by omega) (.stopping (by omega) ⟨hb.start, hb.stopSent⟩)
      · rw [exec_rxData_outside _ _ _ hidx] at h
        cases h
  | done q a =>
    obtain ⟨rfl, -⟩ := hat
    cases h
    cases hbusy'
  | abort q a =>
    obtain ⟨rfl, hu⟩ := hat
    refine .outside ?_
    rw [abort_stays rfl h hbusy', hu]
    decide
  | init | write | read | badCommand => exact hat.elim
  | _ => dsimp only [RomAt] at hat; omega

/-! ### Every step -/

theorem transferReleases_of_runStep (hinv : MteInv s) (hinv' : MteInv t) (hbus : s.b.Coherent) (hbusy : s.m.busy = true)
    (hs : TransferReleases s) (h : RunStep s t) : TransferReleases t := by
  rw [transferReleases_iff] at hs ⊢
  have hphase := hs hbusy
  intro hbusy'
  cases h with
  | keeps hm hb => rwa [hm, hb]
  | bus hmove => exact hphase.bus hmove
  | micro hat h =>
    by_cases hu : s.m.upc.toNat ≤ 8
    · obtain ⟨hop, -⟩ := (exec_microNext (isMicro_of_romAt hat) h).operands_frame
      exact .outside (.inl (by rwa [← mteInv_op_init_iff hinv' hbusy', hop, mteInv_op_init_iff hinv hbusy]))
    · exact inReleasePhase_of_exec hbus (by omega) hbusy' hat h hphase

/-- A command that is accepted stands at the entry of its part of the ROM (rule R83). -/
theorem Latches.entry_of_op {m m' : Mte} (hm : Latches m i m') (hidle : m.busy = false) (hbusy : m'.busy = true) :
    (m'.op = .init ∧ m'.upc.toNat = 0) ∨ (m'.op ≠ .init ∧ (m'.upc.toNat = 9 ∨ m'.upc.toNat = 21)) := by
  cases hm with
  | init => exact .inl ⟨rfl, rfl⟩
  | write => exact .inr ⟨nofun, .inl rfl⟩
  | read => exact .inr ⟨nofun, .inr rfl⟩
  | badCommand => cases hidle.symm.trans hbusy

/-- A WRITE or READ that is accepted with no START pending and outside M_SB starts in its first phase. -/
theorem transferReleases_of_accepted (hinv : MteInv s) (hidle : s.m.busy = false) (h : step s = .next t)
    (hfresh : t.m.busy = true → t.m.op ≠ .init → flag s.b.cr1 cr1START = false ∧ s.b.bmode ≠ .mSb) :
    TransferReleases t := by
  rw [transferReleases_iff]
  intro hbusy
  rcases step_idle hinv hidle h with hm | ⟨i, hm, hb⟩
  · rw [hm, hidle] at hbusy
    cases hbusy
  · rcases hm.entry_of_op hidle hbusy with ⟨-, hu⟩ | ⟨hop, hu⟩
    · exact .outside (by omega)
    · obtain ⟨hstart, hmode⟩ := hfresh hbusy hop
      rw [hb]
      exact .unrequested (by omega) hstart hmode

theorem transferReleases_of_step (hinv : MteInv s) (hbus : BusInv s) (hs : TransferReleases s) (h : step s = .next t)
    (hfresh : s.m.busy = false → t.m.busy = true → t.m.op ≠ .init →
      flag s.b.cr1 cr1START = false ∧ s.b.bmode ≠ .mSb) : TransferReleases t := by
  cases hbusy : s.m.busy with
  | false => exact transferReleases_of_accepted hinv hbusy h (hfresh hbusy)
  | true =>
    obtain ⟨q, n, hrun⟩ := step_runStep hinv hbusy h
    obtain ⟨q', n', hnext⟩ := step_stepNext h
    have hinv' := mteInv_of_stepNext (s := { s with schedule := q', turnsDrawn := n' }) hinv hnext
    exact transferReleases_of_runStep (s := { s with schedule := q, turnsDrawn := n }) hinv hinv'
      ((busInv_iff s).1 hbus) hbusy hs hrun

/-- A command that ends with OK past INIT's part of the ROM has released the bus, by DONE, which leaves NOSTOP and the
controller (rule R135). -/
theorem released_of_ends_ok (hinv : MteInv s) (hbusy : s.m.busy = true) (hu : 9 ≤ s.m.upc.toNat)
    (hs : TransferReleases s) (h : step s = .next t) (hidle : t.m.busy = false) (hok : t.m.result = .ok) :
    t.m.nostop = s.m.nostop ∧ t.b.Released := by
  have hphase := (transferReleases_iff s).1 hs hbusy
  have hend : s.m.upc.toNat = 20 ∨ s.m.upc.toNat = 34 := by
    obtain ⟨hend, -⟩ := step_ends_ok hinv hbusy h hidle hok
    omega
  obtain ⟨q, n, hrun⟩ := step_runStep hinv hbusy h
  cases hrun with
  | keeps hm => cases hbusy.symm.trans (hm ▸ hidle)
  | bus => cases hbusy.symm.trans hidle
  | micro hat h =>
    obtain ⟨a, rfl⟩ := eq_done_of_romAt hend hat
    cases h
    refine ⟨rfl, ?_⟩
    cases hphase with
    | released _ hb => exact hb
    | _ => omega

end

end Sys2Proof.Machine

/-! ### The statement on the release of the bus -/

namespace Sys2Proof.Proofs

open Sys2Proof.Machine Sys2Proof.Safety

/-- Settles O53: stop-sent means released, in ABORT's phase 1 and from the request of the STOP to DONE. -/
theorem commandsThatEndOnStopSentReleaseTheBus : Obligations.CommandsThatEndOnStopSentReleaseTheBus := by
  refine ⟨fun c p q => ⟨nofun, nofun⟩, fun s t => abortReleases_of_step, fun s t hinv hs _ hturn haph hstop h => ?_,
    fun s t hinv hbus hs h hfresh => ?_, fun s t hinv _ hs hop ⟨hbusy, _, h, hidle⟩ hok => ?_⟩
  · obtain ⟨hidle, hnostop, hb⟩ := step_abort_stopSent hinv hturn haph hstop h
    obtain ⟨hstart, hsent⟩ := hs haph
    rw [hb]
    exact ⟨hidle, hnostop, (BMode.isMaster_eq_false _).1 (hsent hstop), hstart⟩
  · refine transferReleases_of_step hinv hbus hs h fun hidle hbusy hop => ?_
    simpa [hidle, hbusy, hop] using hfresh
  · have hu : 9 ≤ s.m.upc.toNat := by
      by_contra hlow
      have hinit := (mteInv_op_init_iff hinv hbusy).2 (by omega)
      simp [hinit] at hop
    obtain ⟨hnostop, hreleased⟩ := released_of_ends_ok hinv hbusy hu hs h hidle hok
    exact ⟨hnostop, (BMode.isMaster_eq_false _).1 hreleased.notMaster, hreleased.start⟩

end Sys2Proof.Proofs

/-! How a command ends: the MTE's turn alone ends it, by DONE, by ABORT's phase 1 or by a rejecting TCU_EVAL, and none of
them touches the controller (rules R19, R116, R135, R204, R239). -/

namespace Sys2Proof.Machine

open Sys2Proof.Safety

/-! ### The MTE's turn while a command runs (rules R19, R66, R87) -/

section
variable {s t : State}

/-- No other agent's turn touches the MTE while a command runs. -/
theorem runTurn_m_kept {τ : Turn} (hturn : τ ≠ .mte) (hbusy : s.m.busy = true) (h : runTurn τ s = .next t) :
    t.m = s.m := by
  by_cases hhost : τ = .host
  · subst hhost
    obtain ⟨-, -, -, -, hrun⟩ := (hostTurn_hostNext h).frame
    exact (hrun hbusy).1
  · rw [runTurn_bus τ s hhost hturn] at h
    cases h
    cases hb : busStep τ s with
    | none => rfl
    | some u =>
      obtain ⟨b, evs, rfl⟩ := busStep_shape hb
      rfl

theorem step_m_kept (hturn : (nextTurn s).1 ≠ .mte) (hbusy : s.m.busy = true) (h : step s = .next t) : t.m = s.m := by
  obtain ⟨q, n, e⟩ := nextTurn_shape s
  obtain ⟨-, -, hrun⟩ := step_next h
  rw [e] at hrun
  exact runTurn_m_kept (s := { s with schedule := q, turnsDrawn := n }) hturn hbusy hrun

/-- The listing holds no reserved word. -/
theorem romAt_of_fetch_romWords {w : Half} (hrom : s.rom = romWords) (hw : fetchWord s = some w) :
    ∃ i, decodeUop w = .ok i ∧ RomAt s.m.upc.toNat i := by
  cases hi : decodeUop w with
  | ok i => exact ⟨i, rfl, romAt_of_fetch hrom hw hi⟩
  | error e =>
    rw [fetchWord, hrom] at hw
    have hall := List.all_eq_true.1 romWords_listing (w, s.m.upc.toNat) (List.mk_mem_zipIdx_iff_getElem?.2 hw)
    simp [wordAt, hi] at hall

/-- The MTE's turn runs the instruction of the listing at which the command stands. -/
theorem mteTurn_exec (hrom : s.rom = romWords) (hbusy : s.m.busy = true) (h : mteTurn s = .next t) :
    ∃ i, RomAt s.m.upc.toNat i ∧ exec i s = .next t := by
  rcases mteTurn_next h with ⟨hidle, -⟩ | ⟨-, w, hw, hend⟩
  · cases hbusy.symm.trans hidle
  · obtain ⟨i, hi, hat⟩ := romAt_of_fetch_romWords hrom hw
    rcases hend with ⟨e, he, -⟩ | ⟨j, hj, h⟩
    · cases hi.symm.trans he
    · cases hi.symm.trans hj
      exact ⟨i, hat, h⟩

/-- So does a step that is the MTE's turn. -/
theorem step_mte_exec (hinv : MteInv s) (hbusy : s.m.busy = true) (hturn : (nextTurn s).1 = .mte)
    (h : step s = .next t) :
    ∃ q n i, RomAt s.m.upc.toNat i ∧ exec i { s with schedule := q, turnsDrawn := n } = .next t := by
  obtain ⟨q, n, e⟩ := nextTurn_shape s
  obtain ⟨-, -, hrun⟩ := step_next h
  rw [hturn, e] at hrun
  exact ⟨q, n, mteTurn_exec (s := { s with schedule := q, turnsDrawn := n }) (mteInv_rom hinv) hbusy hrun⟩

end

/-! ### The ends of a command -/

/-- `EndsBy s t`: the step from `s` to `t` ends the running command, by one of the three ends of rule R239. -/
inductive EndsBy (s t : State) : Prop where
  | done (hu : s.m.upc.toNat = 8 ∨ s.m.upc.toNat = 20 ∨ s.m.upc.toNat = 34) (hresult : t.m.result = .ok)
      (hb : t.b = s.b)
  /-- ABORT's phase 1 has seen stop-sent, or has given up -/
  | aborted (hu : s.m.upc.toNat = 35) (haph : s.m.aph = true) (hresult : t.m.result = s.m.err.result)
      (herrupc : t.m.errupc = s.m.errupc) (hsent : flag s.b.cr1 cr1STOP = false ∨ t.m.nostop = true) (hb : t.b = s.b)
  | rejected (hu : s.m.upc.toNat = 0) (htcu : tcu s.m.clk.toNat s.m.mode s.m.duty = none)
      (hresult : t.m.result = .configError) (hb : t.b = s.b)

section
variable {s t : State} {i : Instr}

/-- No other micro-operation of the listing ends a command. -/
theorem MicroNext.busy_kept (h : MicroNext s i t) {u : Nat} (hat : RomAt u i) (hdone : ∀ q a, i ≠ .done q a)
    (htcu : ∀ q a, i ≠ .tcuEval q a) (habort : ∀ q a, i ≠ .abort q a) : t.m.busy = s.m.busy := by
  cases h with
  | done q a => exact absurd rfl (hdone q a)
  | tcuAccepts q a | tcuRejects q a => exact absurd rfl (htcu q a)
  | abortEnds q a | abortWaits q a => exact absurd rfl (habort q a)
  | cr1Written hi =>
    cases hi with
    | abort q a => exact absurd rfl (habort q a)
    | _ => obtain ⟨rfl, -⟩ := hat; simp [disarm]
  | pollCompletes hi => cases hi <;> obtain ⟨rfl, -⟩ := hat <;> simp [noAction, arm, countByte]
  | wrFreq | wrCcr | wrTrise | txAddr | txData => obtain ⟨rfl, -⟩ := hat; simp
  | clrAddr | rxData => obtain ⟨rfl, -⟩ | ⟨rfl, -⟩ := hat <;> simp [countByte]
  | _ => simp

/-- ABORT ends a command in phase 1 only, on stop-sent or with NOSTOP = 1. -/
theorem endsBy_of_exec_abort {a : MicroAddr} (hu : s.m.upc.toNat = 35) (hbusy : s.m.busy = true)
    (hidle : t.m.busy = false) (h : exec (.abort .endCmd a) s = .next t) : EndsBy s t := by
  cases haph : s.m.aph with
  | false =>
    rcases (writesCr1_abort .endCmd a haph).ends h with ⟨hm, -⟩ | ⟨-, rfl⟩ | ⟨-, -, rfl⟩
    · cases hbusy.symm.trans (hm ▸ hidle)
    · cases hbusy.symm.trans hidle
    · cases hbusy.symm.trans hidle
  | true =>
    rw [exec_abort_polls _ _ haph] at h
    cases hstop : flag s.b.cr1 cr1STOP with
    | false =>
      rw [abortPollStop_sent _ _ hstop] at h
      cases h
      exact .aborted hu haph rfl rfl (.inl hstop) rfl
    | true =>
      rw [abortPollStop_pending _ _ hstop] at h
      split_ifs at h <;> cases h
      · cases hbusy.symm.trans hidle
      · exact .aborted hu haph rfl rfl (.inr rfl) rfl
      · cases hbusy.symm.trans hidle

theorem endsBy_of_exec (hat : RomAt s.m.upc.toNat i) (hbusy : s.m.busy = true) (hidle : t.m.busy = false)
    (h : exec i s = .next t) : EndsBy s t := by
  have kept (hdone : ∀ q a, i ≠ .done q a) (htcu : ∀ q a, i ≠ .tcuEval q a) (habort : ∀ q a, i ≠ .abort q a) :
      EndsBy s t := by
    have hkept := (exec_microNext (isMicro_of_romAt hat) h).busy_kept hat hdone htcu habort
    cases (hkept.trans hbusy).symm.trans hidle
  cases i with
  | done q a =>
    obtain ⟨rfl, hu⟩ := hat
    cases h
    exact .done hu rfl rfl
  | tcuEval q a =>
    obtain ⟨rfl, hu⟩ := hat
    cases htcu : tcu s.m.clk.toNat s.m.mode s.m.duty with
    | none =>
      rw [exec_tcuEval_rejects _ _ htcu] at h
      cases h
      exact .rejected hu htcu rfl rfl
    | some o =>
      rw [exec_tcuEval_accepts _ _ htcu] at h
      cases h
      cases hbusy.symm.trans hidle
  | abort q a =>
    obtain ⟨rfl, hu⟩ := hat
    exact endsBy_of_exec_abort hu hbusy hidle h
  | _ => exact kept nofun nofun nofun

/-- The step by which a command ends. -/
theorem step_endsBy (hinv : MteInv s) (hbusy : s.m.busy = true) (h : step s = .next t) (hidle : t.m.busy = false) :
    (nextTurn s).1 = .mte ∧ EndsBy s t := by
  have hturn : (nextTurn s).1 = .mte := by
    by_contra hother
    rw [step_m_kept hother hbusy h, hbusy] at hidle
    cases hidle
  obtain ⟨q, n, i, hat, hexec⟩ := step_mte_exec hinv hbusy hturn h
  cases endsBy_of_exec (s := { s with schedule := q, turnsDrawn := n }) hat hbusy hidle hexec with
  | done hu hresult hb => exact ⟨hturn, .done hu hresult hb⟩
  | aborted hu haph hresult herrupc hsent hb => exact ⟨hturn, .aborted hu haph hresult herrupc hsent hb⟩
  | rejected hu htcu hresult hb => exact ⟨hturn, .rejected hu htcu hresult hb⟩

end

end Sys2Proof.Machine

/-! ### The statements on the reset state and on the ends of a command -/

namespace Sys2Proof.Proofs

open Sys2Proof.Machine Sys2Proof.Safety

/-- Settles O5: the registers are those of rule R225's table, and the images, BUF and the marks follow. -/
theorem resetLeavesTheBlockIdle : Obligations.ResetLeavesTheBlockIdle := by
  refine ⟨rfl, by decide, by decide, fun _ => rfl, rfl, rfl, ?_, rfl⟩
  exact fun hf => hf.elim nofun nofun

/-- Settles O55, from the three ends of a command. -/
theorem commandsEndOnlyAtTheirEnds : Obligations.CommandsEndOnlyAtTheirEnds := by
  intro s t hinv hbusy h hidle
  obtain ⟨hturn, hends⟩ := step_endsBy hinv hbusy h hidle
  refine ⟨hturn, ?_⟩
  cases hends with
  | done hu hresult =>
    exact .inl ⟨hu.imp BitVec.eq_of_toNat_eq (Or.imp BitVec.eq_of_toNat_eq BitVec.eq_of_toNat_eq), hresult⟩
  | aborted hu haph hresult herrupc =>
    exact .inr (.inl ⟨BitVec.eq_of_toNat_eq hu, haph, hresult, herrupc⟩)
  | rejected hu htcu hresult hb => exact .inr (.inr ⟨BitVec.eq_of_toNat_eq hu, htcu, hresult, hb⟩)

end Sys2Proof.Proofs

/-! The release of the bus from command to command: no START is requested while no WRITE or READ runs, POLL_SB waits for
M_SB, and only the START event leads there (rules R134, R138, R170, R205, R237). -/

namespace Sys2Proof.Machine

open Sys2Proof.Safety

/-! ### No START is requested between commands or in INIT (rule R237) -/

/-- The bus sets no bit of CR1. -/
theorem BusKeepsConfig.cr1_clear {b c : Bc} (h : BusKeepsConfig b c) {k : Nat} (h0 : flag b.cr1 k = false) :
    flag c.cr1 k = false := by
  rcases h.cr1 with e | e | e <;> rw [e]
  · exact h0
  · rw [flag_setFlag _ _ _ _ (by decide), h0, ite_self]
  · rw [flag_setFlag _ _ _ _ (by decide), h0, ite_self]

/-- CR1 takes no bit that was not written. -/
theorem Cr1Takes.flag_clear {v c : Half} (h : Cr1Takes v c) {k : Nat} (h0 : flag v k = false) : flag c k = false := by
  rcases h with rfl | rfl <;> rw [flag_and, h0, Bool.false_and]

section
variable {s t : State} {i : Instr}

/-- INIT requests no START. -/
theorem WritesCr1.start_clear {v : Half} {after : State → State} (hi : WritesCr1 s i v after) {u : Nat}
    (hat : RomAt u i) (hu : u ≤ 8) (h0 : flag s.b.cr1 cr1START = false) : flag v cr1START = false := by
  cases hi with
  | genStart | ackOn | genStop | nackStop | abort =>
    obtain ⟨-, hu'⟩ := hat
    omega
  | _ => simp (disch := decide) only [flag_setFlag_ne, h0]

theorem exec_start_clear_of_init (hat : RomAt s.m.upc.toNat i) (hu : s.m.upc.toNat ≤ 8) (h : exec i s = .next t)
    (h0 : flag s.b.cr1 cr1START = false) : flag t.b.cr1 cr1START = false := by
  rcases exec_cr1 (isMicro_of_romAt hat) h with e | ⟨v, after, hw, e⟩
  · rw [e, h0]
  · exact e.flag_clear (hw.start_clear hat hu h0)

/-- A WRITE or READ ends with no START pending: by DONE it has released the bus, and ABORT's phase 0 has withdrawn the
request. -/
theorem EndsBy.start_clear (hends : EndsBy s t) (hbusy : s.m.busy = true) (hu : 9 ≤ s.m.upc.toNat)
    (htransfer : TransferReleases s) (habort : AbortReleases s) : flag t.b.cr1 cr1START = false := by
  cases hends with
  | done _ _ hb =>
    have hphase := (transferReleases_iff s).1 htransfer hbusy
    rw [hb]
    exact hphase.start_clear (by omega)
  | aborted _ haph _ _ _ hb =>
    rw [hb]
    exact (habort haph).1
  | rejected => omega

/-- A WRITE or READ that ends with NOSTOP = 0 has released the bus. -/
theorem EndsBy.released (hends : EndsBy s t) (hbusy : s.m.busy = true) (hu : 9 ≤ s.m.upc.toNat)
    (hnostop : t.m.nostop = false) (htransfer : TransferReleases s) (habort : AbortReleases s) : t.b.Released := by
  cases hends with
  | done _ _ hb =>
    rw [hb]
    cases (transferReleases_iff s).1 htransfer hbusy with
    | released _ hreleased => exact hreleased
    | _ => omega
  | aborted _ haph _ _ hsent hb =>
    have hb' := (abortReleases_iff s).1 habort haph
    rw [hb]
    exact ⟨hb'.stopSent (hsent.resolve_right (by simp [hnostop])), hb'.start⟩
  | rejected => omega

/-- A WRITE or READ stands past INIT's part of the ROM. -/
theorem mteInv_transfer_place (hinv : MteInv s) (hbusy : s.m.busy = true) (hop : s.m.op = .write ∨ s.m.op = .read) :
    9 ≤ s.m.upc.toNat := by
  by_contra hlow
  have hinit := (mteInv_op_init_iff hinv hbusy).2 (by omega)
  simp [hinit] at hop

/-- A running command stays in INIT's part of the ROM or outside it. -/
theorem exec_stays_in_part (hinv : MteInv s) (hinv' : MteInv t) (hbusy : s.m.busy = true) (hbusy' : t.m.busy = true)
    (hat : RomAt s.m.upc.toNat i) (h : exec i s = .next t) : t.m.upc.toNat ≤ 8 ↔ s.m.upc.toNat ≤ 8 := by
  obtain ⟨hop, -⟩ := (exec_microNext (isMicro_of_romAt hat) h).operands_frame
  rw [← mteInv_op_init_iff hinv' hbusy', hop, mteInv_op_init_iff hinv hbusy]

/-- Between commands and in INIT no START is requested: INIT requests none, and a WRITE or READ leaves none behind. -/
theorem start_clear_of_controllerNext (hinv : MteInv s) (hinv' : MteInv t) (hrel : ReleaseInv s)
    (h : ControllerNext s t) (hout : t.m.busy = false ∨ t.m.upc.toNat ≤ 8) : flag t.b.cr1 cr1START = false := by
  obtain ⟨hstart, htransfer, habort⟩ := hrel
  cases h with
  | keeps hm hb =>
    rw [hb]
    exact hstart (hm ▸ hout)
  | accepts hidle _ hb =>
    rw [hb]
    exact hstart (.inl hidle)
  | bus hm hb => exact hb.cr1_clear (hstart (hm ▸ hout))
  | micro hbusy hat h =>
    by_cases hu : s.m.upc.toNat ≤ 8
    · exact exec_start_clear_of_init hat hu h (hstart (.inr hu))
    · have hidle : t.m.busy = false := by
        by_contra hbusy'
        have hbusy' : t.m.busy = true := by simpa using hbusy'
        exact hu ((exec_stays_in_part hinv hinv' hbusy hbusy' hat h).1 (hout.resolve_left (by simp [hbusy'])))
      exact (endsBy_of_exec hat hbusy hidle h).start_clear hbusy (by omega) htransfer habort

/-- Every step but the acceptance of a WRITE or READ in M_SB keeps the release invariant. -/
theorem releaseInv_of_step (hinv : MteInv s) (hinv' : MteInv t) (hbus : BusInv s) (hrel : ReleaseInv s)
    (h : step s = .next t)
    (hfresh : s.m.busy = false → t.m.busy = true → t.m.op ≠ .init → s.b.bmode ≠ .mSb) : ReleaseInv t := by
  obtain ⟨q, n, hs⟩ := step_controllerNext hinv h
  refine ⟨start_clear_of_controllerNext (s := { s with schedule := q, turnsDrawn := n }) hinv hinv' hrel hs, ?_, ?_⟩
  · obtain ⟨hstart, htransfer, -⟩ := hrel
    exact transferReleases_of_step hinv hbus htransfer h fun hidle hbusy hop =>
      ⟨hstart (.inl hidle), hfresh hidle hbusy hop⟩
  · obtain ⟨-, -, habort⟩ := hrel
    exact abortReleases_of_step hinv habort h

end

/-! ### POLL_SB waits for M_SB (rules R133, R134, R138) -/

section
variable {s t : State} {i : Instr}

theorem eq_pollSb_of_romAt {u : Nat} (hu : u = 10 ∨ u = 23) (h : RomAt u i) : ∃ a, i = .pollSb .next a := by
  cases i with
  | pollSb q a => exact ⟨a, by rw [h.1]⟩
  | init | write | read | badCommand => exact h.elim
  | _ => dsimp only [RomAt] at h; omega

/-- A read that finds SB = 0 stays, or raises Timeout. -/
theorem exec_pollSb_waits {q : Seq} {a : MicroAddr} (hsb : flag s.b.sr1 sr1SB = false)
    (h : exec (.pollSb q a) s = .next t) : t.m.upc = s.m.upc ∨ t.m.upc = 35#6 ∧ t.m.err = .timeout := by
  have hpoll : pollOnce rowSb noAction q a s = pollUnresolved (readSr1 s).2 :=
    (pollOnce_unchecked q a s noAction (pollReads_sr1 s rfl rfl rfl) rfl rfl).trans
      (if_neg (by simp [rowSb, PollCond.holds, hsb]))
  rw [(PollOp.pollSb q a).exec_eq, hpoll] at h
  cases h
  rcases pollUnresolved_cases (readSr1 s).2 with ⟨-, e⟩ | ⟨-, -, e⟩ | ⟨-, -, e⟩ <;> rw [e]
  · exact .inl rfl
  · exact .inr ⟨rfl, rfl⟩
  · exact .inl rfl

theorem step_pollSb_waits (hinv : MteInv s) (hbus : BusInv s) (hbusy : s.m.busy = true)
    (hu : s.m.upc.toNat = 10 ∨ s.m.upc.toNat = 23) (hmode : s.b.bmode ≠ .mSb) (hturn : (nextTurn s).1 = .mte)
    (h : step s = .next t) : t.m.upc = s.m.upc ∨ t.m.upc = 35#6 ∧ t.m.err = .timeout := by
  obtain ⟨q, n, i, hat, hexec⟩ := step_mte_exec hinv hbusy hturn h
  obtain ⟨a, rfl⟩ := eq_pollSb_of_romAt hu hat
  have hsb : flag s.b.sr1 sr1SB = false := ((busInv_iff s).1 hbus).sb.trans (decide_eq_false hmode)
  exact exec_pollSb_waits (s := { s with schedule := q, turnsDrawn := n }) hsb hexec

end

/-! ### Only the START event leads to M_SB (rule R170) -/

/-- What an instruction may do to the flags does not lead to M_SB. -/
theorem flagFrame_not_mSb {i : Instr} {b c : Bc} (h : FlagFrame i b c) (hb : b.bmode ≠ .mSb) : c.bmode ≠ .mSb := by
  have same (h : SameFlags b c) : c.bmode ≠ .mSb := by
    obtain ⟨-, -, hmode, -⟩ := h
    rwa [hmode]
  have disabled (h : Disabled b c) : c.bmode ≠ .mSb := by
    rw [h.2.2]
    exact nofun
  have drWritten {v : Byte} (h : DrWrite v b c) : c.bmode ≠ .mSb := by
    obtain ⟨haddress, hdata, hstored⟩ := h
    by_cases ha : flag b.sr1 sr1SB = true ∧ b.sr1SeenSB = true
    · rw [haddress ha]
      exact nofun
    · by_cases hd : b.bmode = .mTx ∧ flag b.sr1 sr1TXE = true
      · rwa [hdata ha hd]
      · rwa [hstored ha hd]
  cases i with
  | init | write | read | badCommand | done | tcuEval | wrFreq | wrCcr | wrTrise | pollStop => exact same h
  | peOff | selI2c | setOpts | peOn | ackOn | genStart | genStop | nackStop => exact h.elim same disabled
  | abort =>
    obtain h | h | e := h
    · exact same h
    · exact disabled h
    · rwa [e]
  | pollSb | pollMb | pollAddr | pollTxe | pollBtf | pollRxne =>
    obtain ⟨-, hmode, -⟩ := pollFlags_kept h
    rwa [hmode]
  | clrAddr =>
    obtain h | ⟨-, e⟩ := h
    · exact same h
    · rwa [e]
  | txAddr | txData =>
    obtain rfl | ⟨v, hv⟩ := h
    · exact hb
    · exact drWritten hv
  | rxData => rwa [show c = _ from h]

/-- The bus takes the controller to M_SB by the START event only, from IDLE. -/
theorem BusMove.enters_mSb {held : Bool} {b c : Bc} {es : List Event} (h : BusMove held b es c)
    (hb : b.bmode ≠ .mSb) (hc : c.bmode = .mSb) : b.bmode = .idle ∧ es = [.start] := by
  cases h with
  | started _ _ hidle => exact ⟨hidle, rfl⟩
  | addressAcked => cases hd : flag b.dr 0 <;> simp [hd] at hc
  | byteAcked | receivedAck | claimed | stoppedIdle => exact absurd hc hb
  | _ => cases hc

/-- START waits for a free bus. -/
theorem busStep_enters_mSb {τ : Turn} {s t : State} (h : busStep τ s = some t) (hs : s.b.bmode ≠ .mSb)
    (ht : t.b.bmode = .mSb) :
    s.b.bmode = .idle ∧ flag s.b.sr2 sr2BUSY = false ∧ t.trace = s.trace ++ [.start] := by
  have hwaits := busStep_idle_while_busy h
  obtain ⟨es, c, hmove, rfl⟩ := busStep_busMove h
  obtain ⟨hidle, rfl⟩ := hmove.enters_mSb hs ht
  refine ⟨hidle, ?_, rfl⟩
  by_contra hbusy
  cases ht.symm.trans (hwaits hidle (by simpa using hbusy))

theorem step_enters_mSb {s t : State} (h : step s = .next t) (hs : s.b.bmode ≠ .mSb) (ht : t.b.bmode = .mSb) :
    s.b.bmode = .idle ∧ flag s.b.sr2 sr2BUSY = false ∧ t.trace = s.trace ++ [.start] := by
  obtain ⟨q, n, hnext⟩ := step_bcNext h
  cases hnext with
  | keeps hb => exact absurd ht (hb ▸ hs)
  | micro hi hexec => exact absurd ht (flagFrame_not_mSb (exec_microNext hi hexec).flagFrame hs)
  | bus hbus => exact busStep_enters_mSb (s := { s with schedule := q, turnsDrawn := n }) hbus hs ht

end Sys2Proof.Machine

/-! ### The statement on the release of the bus from command to command -/

namespace Sys2Proof.Proofs

open Sys2Proof.Machine Sys2Proof.Safety

/-- Settles O54: the release invariant from command to command, the wait of POLL_SB, and the one way to M_SB. -/
theorem everyCommandReleasesTheBusUnlessAcceptedInMSb : Obligations.EveryCommandReleasesTheBusUnlessAcceptedInMSb := by
  obtain ⟨-, hkept⟩ := mteInvariantHoldsAlways
  refine ⟨fun c p q => ⟨fun _ => flag_zero _, nofun, nofun⟩, fun s t hinv hbus hrel h hexcept => ?_,
    fun s t hinv _ hrel hop hends hnostop => ?_, fun s t hinv hbus hbusy hu hmode hturn h => ?_,
    fun s t h => step_enters_mSb h⟩
  · exact releaseInv_of_step hinv (hkept s t hinv h) hbus hrel h fun hidle hbusy hop hmode =>
      hexcept ⟨hidle, hbusy, hop, hmode⟩
  · obtain ⟨hbusy, -, h, hidle⟩ := hends
    obtain ⟨-, htransfer, habort⟩ := hrel
    obtain ⟨-, hends⟩ := step_endsBy hinv hbusy h hidle
    have hreleased := hends.released hbusy (mteInv_transfer_place hinv hbusy hop) hnostop htransfer habort
    exact ⟨(BMode.isMaster_eq_false _).1 hreleased.notMaster, hreleased.start⟩
  · exact step_pollSb_waits hinv hbus hbusy (hu.imp (congrArg BitVec.toNat) (congrArg BitVec.toNat)) hmode hturn h

end Sys2Proof.Proofs

/-! The step bound: from place to place of the listing the count of the steps left falls, so that a command ends within
its bound (rules R133, R204, R241). -/

namespace Sys2Proof.Machine

open Sys2Proof.Safety

/-! ### The count by places (rule R241) -/

/-- The places of the polls, which ABORT is not among. -/
abbrev PollPlace (u : Nat) : Prop := u ∈ [10, 11, 13, 15, 17, 19, 23, 24, 26, 28, 31, 33]

theorem entersPoll_of_pollPlace {a : MicroAddr} (h : PollPlace a.toNat) : entersPoll romWords a = true := by
  rw [entersPoll_romWords]
  revert a
  decide

/-- `m'` is `m` moved to the place `u`, where a poll starts with a budget of `b` reads. -/
structure MovedTo (m m' : Mte) (u b : Nat) : Prop where
  place : m'.upc.toNat = u
  length : transferLength m' = transferLength m
  loaded : PollPlace u → m'.cnt.toNat = b

section
variable {m m' : Mte} {u b : Nat}

/-- A poll counts its own reads, and ahead of it are more steps than ABORT takes. -/
theorem stepsLeft_poll (hu : m.upc.toNat = u) (hpoll : PollPlace u) (hleft : u = 17 → m.idx.toNat < transferLength m) :
    ∃ ahead, b + 1 < ahead ∧ ∀ c, stepsLeft { m with cnt := c } b = c.toNat + ahead := by
  have hlength : ∀ c, transferLength { m with cnt := c } = transferLength m := fun _ => rfl
  generalize hr : transferLength m - m.idx.toNat = left at *
  by_cases hloop : u = 17
  · obtain ⟨r, rfl⟩ : ∃ r, left = r + 1 := ⟨left - 1, by have := hleft hloop; omega⟩
    subst hloop
    simp only [stepsLeft, hu, hlength, hr, Nat.add_assoc]
    refine ⟨_, ?_, fun _ => rfl⟩
    nlinarith
  · simp only [List.mem_cons, List.not_mem_nil, or_false, hloop, false_or] at hpoll
    rcases hpoll with rfl | rfl | rfl | rfl | rfl | rfl | rfl | rfl | rfl | rfl | rfl
    all_goals
      simp only [stepsLeft, hu, hlength, hr, Nat.add_assoc]
      refine ⟨_, ?_, fun _ => rfl⟩
      nlinarith

/-- INIT counts its micro-operations. -/
theorem stepsLeft_init (hu : m.upc.toNat = u) (hinit : u ≤ 8) : stepsLeft m b = 9 - u := by
  interval_cases u <;> simp only [stepsLeft, hu]

/-- Past INIT's part and outside ABORT a step is left. -/
theorem stepsLeft_transfer_pos (hu : m.upc.toNat = u) (hfirst : 9 ≤ u) (hlast : u ≤ 34) : 0 < stepsLeft m b := by
  interval_cases u <;> simp only [stepsLeft, hu] <;> positivity

/-- From a place that neither branches, counts a byte nor ends the command, the next place has fewer steps left. -/
theorem stepsLeft_straight (h : MovedTo m m' (u + 1) b) (hu : m.upc.toNat = u) (hplace : StraightPlace u)
    (hidx : m'.idx = m.idx) (hcnt : PollPlace u → 1 ≤ m.cnt.toNat) : stepsLeft m' b < stepsLeft m b := by
  obtain ⟨hu', hn, hloaded⟩ := h
  obtain ⟨hlast, hplace⟩ := hplace
  by_cases hinit : u < 8
  · rw [stepsLeft_init hu (by omega), stepsLeft_init hu' (by omega)]
    omega
  · have hfirst : 9 ≤ u := by omega
    have hleft : transferLength m - m.idx.toNat ≤ transferLength m := Nat.sub_le _ _
    have hpolls := Nat.mul_le_mul_right b hleft
    interval_cases u
    -- the places that are no `StraightPlace`
    any_goals omega
    all_goals
      simp only [List.mem_cons, List.not_mem_nil, Nat.reduceEqDiff, Nat.reduceAdd, or_self, or_true, true_or,
        forall_const] at hcnt hloaded
      simp only [stepsLeft, hu, hu', hn, hidx, hloaded]
      linarith

/-- At the end of the WRITE loop a byte is done, which saves its steps, or the loop is left. -/
theorem stepsLeft_loopw (hu : m.upc.toNat = 17) (hi : m.idx.toNat < transferLength m) (hcnt : 1 ≤ m.cnt.toNat)
    (h : MovedTo m m' 15 b ∧ m'.idx.toNat = m.idx.toNat + 1 ∨ MovedTo m m' 18 b) : stepsLeft m' b < stepsLeft m b := by
  obtain ⟨r, hr⟩ : ∃ r, transferLength m - m.idx.toNat = r + 1 := ⟨transferLength m - m.idx.toNat - 1, by omega⟩
  rcases h with ⟨⟨hu', hn, hloaded⟩, hidx⟩ | ⟨hu', -, -⟩
  · have hr' : transferLength m' - m'.idx.toNat = r := by omega
    simp only [stepsLeft, hu, hu', hr, hr', hloaded (by decide)]
    linarith
  · simp only [stepsLeft, hu, hu', hr]
    nlinarith

/-- Both branches of a READ on its length have fewer steps left. -/
theorem stepsLeft_skip1 (hu : m.upc.toNat = 27) (h : MovedTo m m' 28 b ∨ MovedTo m m' 30 b) :
    stepsLeft m' b < stepsLeft m b := by
  have hpos : 1 ≤ transferLength m := Nat.succ_pos _
  rcases h with ⟨hu', hn, hloaded⟩ | ⟨hu', -, -⟩
  · have hleft : transferLength m - m'.idx.toNat ≤ transferLength m := Nat.sub_le _ _
    have hpolls := Nat.mul_le_mul_right b hleft
    simp only [stepsLeft, hu, hu', hn, hloaded (by decide)]
    linarith
  · simp only [stepsLeft, hu, hu']
    nlinarith

/-- At the end of the READ loop a byte is done, which saves its steps, or the loop is left. -/
theorem stepsLeft_loopr (hu : m.upc.toNat = 29) (hi : m.idx.toNat + 1 < transferLength m)
    (h : MovedTo m m' 28 b ∧ m'.idx.toNat = m.idx.toNat + 1 ∨ MovedTo m m' 30 b) : stepsLeft m' b < stepsLeft m b := by
  obtain ⟨r, hr⟩ : ∃ r, transferLength m - m.idx.toNat = r + 2 := ⟨transferLength m - m.idx.toNat - 2, by omega⟩
  rcases h with ⟨⟨hu', hn, hloaded⟩, hidx⟩ | ⟨hu', -, -⟩
  · have hr' : transferLength m' - m'.idx.toNat = r + 1 := by omega
    simp only [stepsLeft, hu, hu', hr, hr', hloaded (by decide)]
    linarith
  · simp only [stepsLeft, hu, hu', hr]
    nlinarith

/-- After the last byte of a READ the STOP and DONE are left. -/
theorem stepsLeft_lastByte (hu : m.upc.toNat = 32) (h : MovedTo m m' 33 b) : stepsLeft m' b < stepsLeft m b := by
  simp only [stepsLeft, hu, h.place, h.loaded (by decide)]
  omega

/-- ABORT's phase 0 is one step more. -/
theorem stepsLeft_abort_starts (hu : m.upc.toNat = 35) (haph : m.aph = false) : stepsLeft m b = 1 + m.cnt.toNat := by
  simp [stepsLeft, hu, haph]

/-- ABORT's phase 1 counts its reads. -/
theorem stepsLeft_abort_polls (hu : m.upc.toNat = 35) (haph : m.aph = true) : stepsLeft m b = m.cnt.toNat := by
  simp [stepsLeft, hu, haph]

end

/-! ### Every micro-operation uses up the bound -/

/-- `t` has fewer steps left than `s`. -/
def UsesUp (s t : State) : Prop :=
  stepsLeft t.m s.cfg.pollBudget.toNat < stepsLeft s.m s.cfg.pollBudget.toNat

/-- The polls of the listing stand at these places. -/
theorem PollOp.place {i : Instr} {row : PollRow} {act : State → State} {q : Seq} {a : MicroAddr}
    (hi : PollOp i row act q a) {u : Nat} (hat : RomAt u i) : PollPlace u := by
  simp only [List.mem_cons, List.not_mem_nil, or_false]
  cases hi <;> dsimp only [RomAt] at hat <;> omega

/-- A write to CR1 that is not refused and records no fault is done. -/
theorem WritesCr1.done {s t : State} {i : Instr} {v : Half} {after : State → State} (hi : WritesCr1 s i v after)
    (hclear : ¬ Faulted s) (h15 : flag s.b.cr1 cr1SWRST = false) (hfaults : t.faults = s.faults)
    (h : exec i s = .next t) : ∃ b, t = after (s.withB b) := by
  rw [hi.exec_eq] at h
  rcases writeCr1_cases v s with ⟨h15', e⟩ | ⟨-, -, e⟩ | ⟨-, -, -, e⟩ | ⟨-, -, -, e⟩ <;> rw [e] at h <;> cases h
  · cases (hi.flag_swrst.trans h15).symm.trans h15'
  · exact ⟨_, rfl⟩
  · exact absurd (.inr (congrArg FaultSet.abortWithoutStop hfaults).symm) hclear
  · exact ⟨_, rfl⟩

section
variable {s : State} (hinv : MteInv s) (hbusy : s.m.busy = true)
include hinv hbusy

/-- A poll or ABORT has a read left (rules R133, R204). -/
theorem mteInv_cnt_pos (hbudget : s.cfg.pollBudget ≠ 0#16) (hpoll : entersPoll romWords s.m.upc = true) :
    1 ≤ s.m.cnt.toNat := by
  obtain ⟨-, -, -, hcnt, -⟩ := hinv
  exact (hcnt hbusy hbudget hpoll).1

theorem mteInv_abort_cnt_pos (hbudget : s.cfg.pollBudget ≠ 0#16) (hu : s.m.upc.toNat = 35) : 1 ≤ s.m.cnt.toNat := by
  have hupc : s.m.upc = abortEntry := BitVec.eq_of_toNat_eq hu
  exact mteInv_cnt_pos hinv hbusy hbudget (by rw [hupc]; decide)

/-- In the WRITE loop a byte is left. -/
theorem mteInv_left_of_loopw (hu : s.m.upc.toNat = 17) : s.m.idx.toNat < transferLength s.m := by
  have hplace := mteInv_place hinv hbusy
  rw [hu, placeAt_write (by decide)] at hplace
  omega

/-- In the READ loop two bytes are left. -/
theorem mteInv_left_of_loopr (hu : s.m.upc.toNat = 29) : s.m.idx.toNat + 1 < transferLength s.m := by
  have hplace := mteInv_place hinv hbusy
  rw [hu, placeAt_read (by decide)] at hplace
  omega

theorem stepsLeft_at_poll (hpoll : PollPlace s.m.upc.toNat) :
    ∃ ahead, s.cfg.pollBudget.toNat + 1 < ahead ∧
      ∀ c, stepsLeft { s.m with cnt := c } s.cfg.pollBudget.toNat = c.toNat + ahead :=
  stepsLeft_poll rfl hpoll (mteInv_left_of_loopw hinv hbusy)

end

/-! #### The moves of the sequencer -/

/-- What the body of a micro-operation leaves of a running command and its budget. -/
structure SameBudget (s w : State) : Prop extends SameCommand s w where
  cfg : w.cfg = s.cfg

theorem sameBudget_withB (s : State) (b : Bc) : SameBudget s (s.withB b) :=
  ⟨(sameProgress_withB s b).toSameCommand, rfl⟩

section
variable {s w : State} {q : Seq} {a : MicroAddr} {u : Nat} (hinv : MteInv s) (hsame : SameBudget s w)
include hinv hsame

/-- The sequencer moves a completed micro-operation on, and loads the budget of a poll (rule R23). -/
theorem movedTo_setUpc (ha : a.toNat = u) (hne : s.m.upc.toNat ≠ u) :
    MovedTo s.m (setUpc a w).m u s.cfg.pollBudget.toNat := by
  refine ⟨ha, hsame.transferLength_eq, fun hpoll => ?_⟩
  have hmoved : a ≠ w.m.upc := fun e => hne (by rw [← hsame.upc, ← e, ha])
  have hloads : entersPoll w.rom a = true := by
    rw [hsame.rom, mteInv_rom hinv]
    exact entersPoll_of_pollPlace (ha ▸ hpoll)
  rw [setUpc_m_cnt, if_pos ⟨hmoved, hloads⟩, hsame.cfg]

theorem movedTo_succ (hu : s.m.upc.toNat = u) (hrom : u ≤ 34) :
    MovedTo s.m (setUpc (w.m.upc + 1) w).m (u + 1) s.cfg.pollBudget.toNat :=
  movedTo_setUpc hinv hsame (by rw [hsame.upc, upc_succ (by omega), hu]) (by omega)

theorem usesUp_skip1 (hu : s.m.upc.toNat = 27) : UsesUp s (applySeq .skip1 30#6 w) := by
  rw [applySeq_skip1]
  split
  · exact stepsLeft_skip1 hu (.inr (movedTo_setUpc hinv hsame rfl (by omega)))
  · exact stepsLeft_skip1 hu (.inl (movedTo_succ hinv hsame hu (by decide)))

theorem usesUp_lastByte (hu : s.m.upc.toNat = 32) : UsesUp s (applySeq .next a w) :=
  stepsLeft_lastByte hu (movedTo_succ hinv hsame hu (by decide))

variable (hbusy : s.m.busy = true)
include hbusy

theorem usesUp_loopr (hidx : w.m.idx = s.m.idx + 1) (hu : s.m.upc.toNat = 29) :
    UsesUp s (applySeq .loopr 28#6 w) := by
  have hleft := mteInv_left_of_loopr hinv hbusy hu
  rw [applySeq_loopr]
  split
  · refine stepsLeft_loopr hu hleft (.inl ⟨movedTo_setUpc hinv hsame rfl (by omega), ?_⟩)
    rw [setUpc_m_idx, hidx, idx_succ (by omega)]
  · exact stepsLeft_loopr hu hleft (.inr (movedTo_succ hinv hsame hu (by decide)))

variable (hbudget : s.cfg.pollBudget ≠ 0#16)
include hbudget

theorem usesUp_loopw (hidx : w.m.idx = s.m.idx + 1) (hu : s.m.upc.toNat = 17) :
    UsesUp s (applySeq .loopw 15#6 w) := by
  have hleft := mteInv_left_of_loopw hinv hbusy hu
  have hcnt := mteInv_cnt_pos hinv hbusy hbudget (entersPoll_of_pollPlace (by rw [hu]; decide))
  rw [applySeq_loopw]
  split
  · refine stepsLeft_loopw hu hleft hcnt (.inl ⟨movedTo_setUpc hinv hsame rfl (by omega), ?_⟩)
    rw [setUpc_m_idx, hidx, idx_succ hleft]
  · exact stepsLeft_loopw hu hleft hcnt (.inr (movedTo_succ hinv hsame hu (by decide)))

theorem usesUp_next (hidx : w.m.idx = s.m.idx) (hq : q = .next ∨ q = .cfgchk) (hu : StraightPlace s.m.upc.toNat) :
    UsesUp s (applySeq q a w) := by
  have hseq : applySeq q a w = setUpc (w.m.upc + 1) w := by rcases hq with rfl | rfl <;> rfl
  rw [hseq]
  refine stepsLeft_straight (movedTo_succ hinv hsame rfl (by omega)) rfl hu hidx fun hpoll => ?_
  exact mteInv_cnt_pos hinv hbusy hbudget (entersPoll_of_pollPlace hpoll)

end

/-! #### The polls and ABORT -/

/-- What counts down is less than it was (rule R133). -/
theorem countsDown_lt {s : State} {c : BitVec 16} (hc : CountsDown s c) (hbudget : s.cfg.pollBudget ≠ 0#16)
    (hcnt : 1 ≤ s.m.cnt.toNat) : c.toNat < s.m.cnt.toNat := by
  obtain ⟨h0, -⟩ | ⟨-, -, rfl⟩ := hc
  · exact absurd h0 hbudget
  · bv_omega

/-- ABORT's phase 0 goes on to phase 1. -/
theorem usesUp_abortStarts {s : State} {b : Bc} (hu : s.m.upc.toNat = 35) (haph : s.m.aph = false) :
    UsesUp s ((writeSr1 abortSr1 (s.withB b)).withM { s.m with armed := false, aph := true }) := by
  calc stepsLeft { s.m with armed := false, aph := true } s.cfg.pollBudget.toNat
    _ = s.m.cnt.toNat := stepsLeft_abort_polls hu rfl
    _ < 1 + s.m.cnt.toNat := by omega
    _ = stepsLeft s.m s.cfg.pollBudget.toNat := (stepsLeft_abort_starts hu haph).symm

section
variable {s t : State} {i : Instr} (hinv : MteInv s) (hbusy : s.m.busy = true)
include hinv hbusy

/-- A poll that raises an error leaves ABORT's steps. -/
theorem usesUp_pollRaises {w : State} {e : ErrKind} (hpoll : PollPlace s.m.upc.toNat) (hsame : SameBudget s w) :
    UsesUp s (raise e w) := by
  obtain ⟨ahead, hahead, hcount⟩ := stepsLeft_at_poll hinv hbusy hpoll
  have houtside : s.m.upc.toNat ≠ 35 := fun hu => absurd (hu ▸ hpoll) (by decide)
  have haph : s.m.aph = false := by
    by_contra h
    exact houtside (mteInv_aph hinv (by simpa using h)).2
  have hloads : abortEntry ≠ w.m.upc ∧ entersPoll w.rom abortEntry = true := by
    rw [hsame.upc, hsame.rom, mteInv_rom hinv]
    exact ⟨fun h => houtside (congrArg BitVec.toNat h.symm), by decide⟩
  have hcnt : (raise e w).m.cnt = s.cfg.pollBudget := (if_pos hloads).trans (congrArg Config.pollBudget hsame.cfg)
  calc stepsLeft (raise e w).m s.cfg.pollBudget.toNat
    _ = 1 + s.cfg.pollBudget.toNat := by
      rw [stepsLeft_abort_starts (m := (raise e w).m) rfl (hsame.aph.trans haph), hcnt]
    _ < s.m.cnt.toNat + ahead := by omega
    _ = stepsLeft s.m s.cfg.pollBudget.toNat := (hcount s.m.cnt).symm

variable (hbudget : s.cfg.pollBudget ≠ 0#16)
include hbudget

/-- A poll that goes on waiting. -/
theorem usesUp_pollWaits {b : Bc} {c : BitVec 16} (hpoll : PollPlace s.m.upc.toNat) (hc : CountsDown s c) :
    UsesUp s ((s.withB b).withM { s.m with cnt := c }) := by
  obtain ⟨ahead, -, hcount⟩ := stepsLeft_at_poll hinv hbusy hpoll
  have hlt := countsDown_lt hc hbudget (mteInv_cnt_pos hinv hbusy hbudget (entersPoll_of_pollPlace hpoll))
  calc stepsLeft { s.m with cnt := c } s.cfg.pollBudget.toNat
    _ = c.toNat + ahead := hcount c
    _ < s.m.cnt.toNat + ahead := Nat.add_lt_add_right hlt ahead
    _ = stepsLeft s.m s.cfg.pollBudget.toNat := (hcount s.m.cnt).symm

/-- ABORT's phase 1 goes on waiting. -/
theorem usesUp_abortWaits {c : BitVec 16} (hu : s.m.upc.toNat = 35) (haph : s.m.aph = true) (hc : CountsDown s c) :
    UsesUp s (s.withM { s.m with cnt := c }) := by
  calc stepsLeft { s.m with cnt := c } s.cfg.pollBudget.toNat
    _ = c.toNat := stepsLeft_abort_polls hu haph
    _ < s.m.cnt.toNat := countsDown_lt hc hbudget (mteInv_abort_cnt_pos hinv hbusy hbudget hu)
    _ = stepsLeft s.m s.cfg.pollBudget.toNat := (stepsLeft_abort_polls hu haph).symm

/-! #### The micro-operations -/

theorem usesUp_cr1Written {v : Half} {after : State → State} (hi : WritesCr1 s i v after)
    (hat : RomAt s.m.upc.toNat i) (b : Bc) : UsesUp s (after (s.withB b)) := by
  cases hi with
  | abort q a haph => exact usesUp_abortStarts hat.2 haph
  | _ q a =>
    obtain ⟨hq, hu⟩ := hat
    refine usesUp_next hinv ⟨?_, rfl⟩ hbusy hbudget rfl (.inl hq) (by omega)
    constructor <;> rfl

theorem usesUp_pollCompletes {row : PollRow} {act : State → State} {q : Seq} {a : MicroAddr}
    (hi : PollOp i row act q a) (hat : RomAt s.m.upc.toNat i) (b : Bc) : UsesUp s (applySeq q a (act (s.withB b))) := by
  cases hi with
  | pollBtf =>
    obtain ⟨rfl, rfl, hu⟩ := hat
    refine usesUp_loopw hinv ⟨?_, rfl⟩ hbusy hbudget rfl hu
    constructor <;> rfl
  | _ =>
    obtain ⟨hq, hu⟩ := hat
    refine usesUp_next hinv ⟨?_, rfl⟩ hbusy hbudget rfl (.inl hq) (by omega)
    constructor <;> rfl

/-- Every micro-operation after which the command still runs uses up the bound, if it records no fault. -/
theorem usesUp_of_exec (hclear : ¬ Faulted s) (h15 : flag s.b.cr1 cr1SWRST = false) (hat : RomAt s.m.upc.toNat i)
    (h : exec i s = .next t) (hbusy' : t.m.busy = true) (hfaults : t.faults = s.faults) : UsesUp s t := by
  have hnext := exec_microNext (isMicro_of_romAt hat) h
  cases hnext with
  | refused hi | faulted hi | cr1Written hi =>
    obtain ⟨b, e⟩ := hi.done hclear h15 hfaults h
    rw [e]
    exact usesUp_cr1Written hinv hbusy hbudget hi hat b
  | done => simp at hbusy'
  | tcuAccepts q a o =>
    obtain ⟨hq, hu⟩ := hat
    refine usesUp_next hinv ⟨?_, rfl⟩ hbusy hbudget rfl (.inr hq) (by omega)
    constructor <;> rfl
  | tcuRejects => cases hbusy'
  | wrFreq q a | wrCcr q a | wrTrise q a | txAddr q a | txData q a =>
    obtain ⟨hq, hu⟩ := hat
    exact usesUp_next hinv (sameBudget_withB s _) hbusy hbudget rfl (.inl hq) (by omega)
  | pollRaises c hi =>
    refine usesUp_pollRaises hinv hbusy (hi.place hat) ⟨?_, rfl⟩
    constructor <;> rfl
  | pollCompletes hi => exact usesUp_pollCompletes hinv hbusy hbudget hi hat _
  | pollWaits hi _ hc => exact usesUp_pollWaits hinv hbusy hbudget (hi.place hat) hc
  | unwrittenByte => exact absurd (.inl (congrArg FaultSet.unwrittenBuf hfaults).symm) hclear
  | clrAddr q a =>
    rcases hat with ⟨hq, hu⟩ | ⟨rfl, rfl, hu⟩
    · exact usesUp_next hinv (sameBudget_withB s _) hbusy hbudget rfl (.inl hq) (by omega)
    · exact usesUp_skip1 hinv (sameBudget_withB s _) hu
  | rxData q a =>
    rcases hat with ⟨rfl, rfl, hu⟩ | ⟨rfl, hu⟩
    · refine usesUp_loopr hinv ⟨?_, rfl⟩ hbusy rfl hu
      constructor <;> rfl
    · refine usesUp_lastByte hinv ⟨?_, rfl⟩ hu
      constructor <;> rfl
  | abortEnds =>
    obtain ⟨rfl, -⟩ := hat
    cases hbusy'
  | abortWaits q a haph hc => exact usesUp_abortWaits hinv hbusy hbudget hat.2 haph hc

end

/-! ### Every step of a run -/

section
variable {s t : State}

/-- No rule sets SWRST. -/
theorem step_swrst_clear (h : step s = .next t) (h15 : flag s.b.cr1 cr1SWRST = false) :
    flag t.b.cr1 cr1SWRST = false := by
  obtain ⟨q, n, hnext⟩ := step_bcNext h
  cases hnext with
  | keeps hb => rwa [hb]
  | micro hi hexec =>
    rcases exec_cr1 hi hexec with e | ⟨v, after, hw, e⟩
    · rwa [e]
    · exact e.flag_clear (hw.flag_swrst.trans h15)
  | bus hbus => exact (busStep_keepsConfig hbus).cr1_clear h15

theorem not_faulted_of_step (h : step s = .next t) : ¬ Faulted s := by
  obtain ⟨hbuf, hstop, -⟩ := step_next h
  simp [Faulted, hbuf, hstop]

/-- Two states in which no fault is recorded record the same faults. -/
theorem faults_eq_of_clear (hs : ¬ Faulted s) (ht : ¬ Faulted t) : t.faults = s.faults := by
  have clear {u : State} (hu : ¬ Faulted u) : u.faults = ⟨false, false⟩ := by
    rcases hf : u.faults with ⟨unwritten, withoutStop⟩
    simp only [Faulted, hf, not_or, Bool.not_eq_true] at hu
    rw [hu.1, hu.2]
  rw [clear hs, clear ht]

section
variable (hinv : MteInv s) (hbusy : s.m.busy = true) (hbudget : s.cfg.pollBudget ≠ 0#16)
include hinv hbusy hbudget

/-- A step that is the MTE's turn uses up the bound. -/
theorem usesUp_of_step (h15 : flag s.b.cr1 cr1SWRST = false) (hturn : (nextTurn s).1 = .mte) (h : step s = .next t)
    (hbusy' : t.m.busy = true) (hfaults : t.faults = s.faults) : UsesUp s t := by
  obtain ⟨q, n, i, hat, hexec⟩ := step_mte_exec hinv hbusy hturn h
  have hclear := not_faulted_of_step h
  exact usesUp_of_exec (s := { s with schedule := q, turnsDrawn := n }) hinv hbusy hbudget hclear h15 hat hexec hbusy'
    hfaults

/-- A command that runs has a step left. -/
theorem stepsLeft_pos : 0 < stepsLeft s.m s.cfg.pollBudget.toNat := by
  by_cases hinit : s.m.upc.toNat ≤ 8
  · rw [stepsLeft_init rfl hinit]
    omega
  · by_cases habort : s.m.upc.toNat = 35
    · have hcnt := mteInv_abort_cnt_pos hinv hbusy hbudget habort
      cases haph : s.m.aph with
      | false =>
        rw [stepsLeft_abort_starts habort haph]
        omega
      | true =>
        rw [stepsLeft_abort_polls habort haph]
        omega
    · obtain ⟨-, hlast, -⟩ := hinv
      exact stepsLeft_transfer_pos rfl (by omega) (by omega)

end

end

/-- A command just accepted has its bound left (rule R241). -/
theorem stepsLeft_accepted {m : Mte} {b : Nat}
    (h : m.op = .init ∧ m.upc = 0#6 ∨ m.op = .write ∧ m.upc = 9#6 ∨ m.op = .read ∧ m.upc = 21#6) :
    stepsLeft m b = stepBound m.op (m.nm1.toNat + 1) b := by
  rcases h with ⟨hop, hu⟩ | ⟨hop, hu⟩ | ⟨hop, hu⟩ <;>
    simp [stepsLeft, stepBound, hop, hu, transferLength]

/-- Along the run of a command its MTE steps and the steps left stay within what was left at first. -/
theorem busyRun_stepsLeft {s0 s : State} {k : Nat} (h : BusyRun s0 k s) (hinv : MteInv s0)
    (hbudget : s0.cfg.pollBudget ≠ 0#16) (h15 : flag s0.b.cr1 cr1SWRST = false) (hclear : ¬ Faulted s) :
    MteInv s ∧ s.m.busy = true ∧ s.cfg = s0.cfg ∧ flag s.b.cr1 cr1SWRST = false ∧
      k + stepsLeft s.m s0.cfg.pollBudget.toNat ≤ stepsLeft s0.m s0.cfg.pollBudget.toNat := by
  induction h with
  | here hbusy => exact ⟨hinv, hbusy, rfl, h15, by omega⟩
  | @onward k s t _ hs hbusy' ih =>
    have hclear' := not_faulted_of_step hs
    obtain ⟨hinv', hbusy, hcfg, h15', hbound⟩ := ih hclear'
    obtain ⟨q, n, hnext⟩ := step_stepNext hs
    obtain ⟨-, -, -, -, -, hcfg'⟩ := hnext.keepsRecord
    refine ⟨mteInv_of_stepNext (s := { s with schedule := q, turnsDrawn := n }) hinv' hnext, hbusy', hcfg'.trans hcfg,
      step_swrst_clear hs h15', ?_⟩
    split
    · next hturn =>
      have huses := usesUp_of_step hinv' hbusy (hcfg ▸ hbudget) h15' hturn hs hbusy' (faults_eq_of_clear hclear' hclear)
      rw [UsesUp, hcfg] at huses
      omega
    · next hturn => rwa [step_m_kept hturn hbusy hs]

end Sys2Proof.Machine

/-! ### The statements on the step bound -/

namespace Sys2Proof.Proofs

open Sys2Proof.Machine Sys2Proof.Safety

/-- Settles O60: the count falls from place to place, within a poll and within ABORT, and no other agent touches the
MTE. -/
theorem everyMteStepUsesUpTheBound : Obligations.EveryMteStepUsesUpTheBound := by
  intro s t hinv hbudget hbusy h hbusy'
  exact ⟨fun hturn hfaults _ h15 => usesUp_of_step hinv hbusy hbudget h15 hturn h hbusy' hfaults,
    fun hturn => step_m_kept hturn hbusy h⟩

/-- Settles O59: a running command has a step left, and each step of the MTE takes one from the bound. -/
theorem commandsEndWithinTheStepBound : Obligations.CommandsEndWithinTheStepBound := by
  intro s0 s k hinv0 hbudget h15 hentry hrun hclear
  obtain ⟨hinv, hbusy, hcfg, -, hbound⟩ := busyRun_stepsLeft hrun hinv0 hbudget h15 hclear
  have hpos := stepsLeft_pos hinv hbusy (hcfg ▸ hbudget)
  rw [hcfg] at hpos
  rw [← stepsLeft_accepted hentry]
  omega

end Sys2Proof.Proofs
